-- ==== Sys2Proof/Word.lean ====
section
/-! DEFINITION. The words of the machine: bytes, code lengths, and the bit reader's three registers as one record.
Bit 0 is the least significant bit and every value is unsigned (00_scope.md R10). -/

namespace Sys2Proof

/-- A byte of the input stream, of the window or of the output stream (20_memory.md R50). -/
abbrev Byte := BitVec 8

/-- One entry of a CodeLengthTable: 4 bits, 0 to 15; 0 means the symbol has no codeword (10_state.md R28). -/
abbrev CodeLen := BitVec 4

/-- The bit reader's state (10_state.md §2): the queue of input bytes not yet wholly consumed (R21), how many bits of
its first byte are consumed (R22: 3 bits, 0 to 7), and the count of bits consumed since RESET (R23). -/
structure Reader where
  inq    : List Byte
  bitoff : BitVec 3
  bitpos : Nat
  deriving DecidableEq, Repr

end Sys2Proof
end

