-- ==== Sys2Proof/Config.lean ====
section
/-! DEFINITION. What is fixed for the machine: the cause codes' names, the named parameters of 00_scope.md R9 and
the fixed parameters of R8 that other files use by name. -/

namespace Sys2Proof

/-- The fourteen cause codes of 60_exceptions.md R221, in the order of their numbers. -/
inductive Cause where
  /-- E_RESERVED_BTYPE, number 1: raised by a block header with BTYPE 3 (R166). -/
  | reservedBtype
  /-- E_STORED_NLEN, number 2: NLEN is not LEN xor 0xFFFF (R152). -/
  | storedNlen
  /-- E_HLIT_RANGE, number 3: more than 286 literal/length code lengths (R157). -/
  | hlitRange
  /-- E_CL_TREE, number 4: the CL lengths are no complete code (R158). -/
  | clTree
  /-- E_CL_REPEAT_NO_PREV, number 5: symbol 16 comes first (R161). -/
  | clRepeatNoPrev
  /-- E_CL_OVERRUN, number 6: a run passes the end of the sequence (R164). -/
  | clOverrun
  /-- E_MISSING_EOB, number 7: symbol 256 has no codeword (R165). -/
  | missingEob
  /-- E_LITLEN_TREE, number 8: the LL lengths are inconsistent (R127, R128). -/
  | litlenTree
  /-- E_DIST_TREE, number 9: the D lengths are inconsistent (R127, R128). -/
  | distTree
  /-- E_INVALID_CODE, number 10: the bits read are no codeword's beginning (R132). -/
  | invalidCode
  /-- E_INVALID_LITLEN_SYM, number 11: LL symbol 286 or 287 (R173). -/
  | invalidLitlenSym
  /-- E_DIST_TOO_FAR, number 12: a distance greater than `total` (R142). -/
  | distTooFar
  /-- E_TRAILING_DATA, number 13: input after the final block (44_fsm_host.md R203). -/
  | trailingData
  /-- E_SESSION_FAILED, number 14: a call on a failed session (44_fsm_host.md R197). -/
  | sessionFailed
  deriving DecidableEq, Repr

/-- TRAILING_POLICY (00_scope.md R9): what whole input bytes after the end of the final block do. -/
inductive TrailingPolicy where
  | error
  | ignore
  deriving DecidableEq, Repr

/-- The named parameters of 00_scope.md R9 that are data, with the defaults of that rule. They are fixed for a
session's life (44_fsm_host.md R207), so they stand in State beside it and no step changes them. A claim about every
state is a claim about every value of them (log entry 6). -/
structure Params where
  trailing     : TrailingPolicy := .error
  strict       : Bool := false
  minChunkHint : Nat := 65536
  deriving DecidableEq, Repr

/-- DETAIL_TEXT (00_scope.md R9, 60_exceptions.md R226): the diagnostic text of a cause. The spec leaves every value
open, so this constant has no body (log entry 7). -/
opaque Config.detailText : Cause → String

/-- WINDOW_SIZE (00_scope.md R8). -/
def Config.windowSize : Nat := 65536

/-- MAX_CODE_LEN (00_scope.md R8). -/
def Config.maxCodeLen : Nat := 15

/-- MAX_NLEN (00_scope.md R8). -/
def Config.maxNlen : Nat := 286

end Sys2Proof
end

