-- ==== Sys2Proof/Syntax.lean ====
section
/-! DEFINITION. The instructions: one constructor for each row of spec/opcode_table.json, with the operands its
encoding carries (30_encoding.md). The "instructions" of this hardware are the elements of the DEFLATE64 stream, the
core's internal operations and the host's transactions (R100). -/

namespace Sys2Proof

/-- The three kinds of code (41_huffman.md R125): literal/length, distance, code length. -/
inductive CodeKind where
  | ll
  | d
  | cl
  deriving DecidableEq, Repr

/-- One codeword `(c, l, s)` of a code: the `len`-bit value `code` decodes to symbol `sym` (41_huffman.md R125). -/
structure Codeword where
  code : Nat
  len  : Nat
  sym  : Nat
  deriving DecidableEq, Repr

/-- A code: its codewords (41_huffman.md R125), in ascending order of symbol as R130 makes them. -/
abbrev Code := List Codeword

/-- The 89 rows of spec/opcode_table.json. -/
inductive Instr where
  /-- BLK_STORED: block header with BTYPE 0; operand BFINAL (R76, R151). -/
  | blkStored (bfinal : Bool)
  /-- BLK_FIXED: block header with BTYPE 1 (R155). -/
  | blkFixed (bfinal : Bool)
  /-- BLK_DYNAMIC: block header with BTYPE 2 (R156). -/
  | blkDynamic (bfinal : Bool)
  /-- BLK_RESERVED: block header with BTYPE 3 (R166). -/
  | blkReserved (bfinal : Bool)
  /-- STORED_HDR: LEN and NLEN (R79, R152). -/
  | storedHdr (len nlen : BitVec 16)
  /-- STORED_BYTE: one raw byte (R153). -/
  | storedByte (b : Byte)
  /-- STORED_END: no bits (R154). -/
  | storedEnd
  /-- DYN_COUNTS: HLIT, HDIST, HCLEN (R81, R156). -/
  | dynCounts (hlit hdist : BitVec 5) (hclen : BitVec 4)
  /-- CL_LEN: one 3-bit CL code length (R83, R158). -/
  | clLen (l : BitVec 3)
  /-- CL_SET: CL symbol 0..15, the length appended (R160). -/
  | clSet (v : CodeLen)
  /-- CL_REP16: repeat the previous length 3 + extra times (R161). -/
  | clRep16 (extra : BitVec 2)
  /-- CL_ZERO17: 3 + extra zeros (R162). -/
  | clZero17 (extra : BitVec 3)
  /-- CL_ZERO18: 11 + extra zeros (R163). -/
  | clZero18 (extra : BitVec 7)
  /-- LIT: LL symbol 0..255, the literal byte (R168). -/
  | lit (b : Byte)
  /-- EOB: LL symbol 256 (R169). -/
  | eob
  /-- LEN_257: length 3 (R92). -/
  | len257
  /-- LEN_258: length 4 (R92). -/
  | len258
  /-- LEN_259: length 5 (R92). -/
  | len259
  /-- LEN_260: length 6 (R92). -/
  | len260
  /-- LEN_261: length 7 (R92). -/
  | len261
  /-- LEN_262: length 8 (R92). -/
  | len262
  /-- LEN_263: length 9 (R92). -/
  | len263
  /-- LEN_264: length 10 (R92). -/
  | len264
  /-- LEN_265: length 11..12 (R92). -/
  | len265 (extra : BitVec 1)
  /-- LEN_266: length 13..14 (R92). -/
  | len266 (extra : BitVec 1)
  /-- LEN_267: length 15..16 (R92). -/
  | len267 (extra : BitVec 1)
  /-- LEN_268: length 17..18 (R92). -/
  | len268 (extra : BitVec 1)
  /-- LEN_269: length 19..22 (R92). -/
  | len269 (extra : BitVec 2)
  /-- LEN_270: length 23..26 (R92). -/
  | len270 (extra : BitVec 2)
  /-- LEN_271: length 27..30 (R92). -/
  | len271 (extra : BitVec 2)
  /-- LEN_272: length 31..34 (R92). -/
  | len272 (extra : BitVec 2)
  /-- LEN_273: length 35..42 (R92). -/
  | len273 (extra : BitVec 3)
  /-- LEN_274: length 43..50 (R92). -/
  | len274 (extra : BitVec 3)
  /-- LEN_275: length 51..58 (R92). -/
  | len275 (extra : BitVec 3)
  /-- LEN_276: length 59..66 (R92). -/
  | len276 (extra : BitVec 3)
  /-- LEN_277: length 67..82 (R92). -/
  | len277 (extra : BitVec 4)
  /-- LEN_278: length 83..98 (R92). -/
  | len278 (extra : BitVec 4)
  /-- LEN_279: length 99..114 (R92). -/
  | len279 (extra : BitVec 4)
  /-- LEN_280: length 115..130 (R92). -/
  | len280 (extra : BitVec 4)
  /-- LEN_281: length 131..162 (R92). -/
  | len281 (extra : BitVec 5)
  /-- LEN_282: length 163..194 (R92). -/
  | len282 (extra : BitVec 5)
  /-- LEN_283: length 195..226 (R92). -/
  | len283 (extra : BitVec 5)
  /-- LEN_284: length 227..258 (R92). -/
  | len284 (extra : BitVec 5)
  /-- LEN_285: length 3..65538 (R92). -/
  | len285 (extra : BitVec 16)
  /-- INVALID_286: LL symbol 286 (R173). -/
  | invalid286
  /-- INVALID_287: LL symbol 287 (R173). -/
  | invalid287
  /-- DIST_0: distance 1 (R93). -/
  | dist0
  /-- DIST_1: distance 2 (R93). -/
  | dist1
  /-- DIST_2: distance 3 (R93). -/
  | dist2
  /-- DIST_3: distance 4 (R93). -/
  | dist3
  /-- DIST_4: distance 5..6 (R93). -/
  | dist4 (extra : BitVec 1)
  /-- DIST_5: distance 7..8 (R93). -/
  | dist5 (extra : BitVec 1)
  /-- DIST_6: distance 9..12 (R93). -/
  | dist6 (extra : BitVec 2)
  /-- DIST_7: distance 13..16 (R93). -/
  | dist7 (extra : BitVec 2)
  /-- DIST_8: distance 17..24 (R93). -/
  | dist8 (extra : BitVec 3)
  /-- DIST_9: distance 25..32 (R93). -/
  | dist9 (extra : BitVec 3)
  /-- DIST_10: distance 33..48 (R93). -/
  | dist10 (extra : BitVec 4)
  /-- DIST_11: distance 49..64 (R93). -/
  | dist11 (extra : BitVec 4)
  /-- DIST_12: distance 65..96 (R93). -/
  | dist12 (extra : BitVec 5)
  /-- DIST_13: distance 97..128 (R93). -/
  | dist13 (extra : BitVec 5)
  /-- DIST_14: distance 129..192 (R93). -/
  | dist14 (extra : BitVec 6)
  /-- DIST_15: distance 193..256 (R93). -/
  | dist15 (extra : BitVec 6)
  /-- DIST_16: distance 257..384 (R93). -/
  | dist16 (extra : BitVec 7)
  /-- DIST_17: distance 385..512 (R93). -/
  | dist17 (extra : BitVec 7)
  /-- DIST_18: distance 513..768 (R93). -/
  | dist18 (extra : BitVec 8)
  /-- DIST_19: distance 769..1024 (R93). -/
  | dist19 (extra : BitVec 8)
  /-- DIST_20: distance 1025..1536 (R93). -/
  | dist20 (extra : BitVec 9)
  /-- DIST_21: distance 1537..2048 (R93). -/
  | dist21 (extra : BitVec 9)
  /-- DIST_22: distance 2049..3072 (R93). -/
  | dist22 (extra : BitVec 10)
  /-- DIST_23: distance 3073..4096 (R93). -/
  | dist23 (extra : BitVec 10)
  /-- DIST_24: distance 4097..6144 (R93). -/
  | dist24 (extra : BitVec 11)
  /-- DIST_25: distance 6145..8192 (R93). -/
  | dist25 (extra : BitVec 11)
  /-- DIST_26: distance 8193..12288 (R93). -/
  | dist26 (extra : BitVec 12)
  /-- DIST_27: distance 12289..16384 (R93). -/
  | dist27 (extra : BitVec 12)
  /-- DIST_28: distance 16385..24576 (R93). -/
  | dist28 (extra : BitVec 13)
  /-- DIST_29: distance 24577..32768 (R93). -/
  | dist29 (extra : BitVec 13)
  /-- DIST_30: distance 32769..49152 (R93). -/
  | dist30 (extra : BitVec 14)
  /-- DIST_31: distance 49153..65536 (R93). -/
  | dist31 (extra : BitVec 14)
  /-- FEED(chunk) (R115). -/
  | feed (chunk : List Byte)
  /-- READ_BITS(n), n in 0..16 (R116). -/
  | readBits (n : Nat)
  /-- ALIGN_TO_BYTE (R117). -/
  | alignToByte
  /-- AVAIL (R118). -/
  | avail
  /-- BUILD(lens, kind) (R126 to R131). -/
  | build (kind : CodeKind) (lens : List CodeLen)
  /-- DECODE(T) (R132). -/
  | decode (T : Code)
  /-- APPEND(b) (R140). -/
  | append (b : Byte)
  /-- COPY_MATCH(d, l), d in 1..65536, l in 3..65538 (R141). -/
  | copyMatch (d l : Nat)
  /-- RESET (R207). -/
  | reset
  /-- DECOMPRESS(chunk) (R195). -/
  | decompress (chunk : List Byte)
  /-- EOF (R206). -/
  | eof
  deriving DecidableEq, Repr

end Sys2Proof
end

