-- ==== Sys2Proof/Machine/Operands.lean ====
section
/-! DEFINITION. Every operand form of the stream (30_encoding.md): the alphabets, the length and distance tables, the
fixed codes' lengths, the CL order, and operand assembly by base plus extra (R99). No state. -/

namespace Sys2Proof

/-- Alphabet sizes N (41_huffman.md R125): 288 LL, 32 D, 19 CL symbols. -/
def CodeKind.size : CodeKind → Nat
  | .ll => 288
  | .d => 32
  | .cl => 19

/-- The length table of 30_encoding.md R92, symbols 257 to 285 in order: (LEXT, LBASE). -/
def lengthTable : List (Nat × Nat) :=
  [
    (0, 3), (0, 4), (0, 5), (0, 6), (0, 7), (0, 8), (0, 9), (0, 10), (1, 11), (1, 13), (1, 15), (1, 17),
    (2, 19), (2, 23), (2, 27), (2, 31), (3, 35), (3, 43), (3, 51), (3, 59), (4, 67), (4, 83), (4, 99),
    (4, 115), (5, 131), (5, 163), (5, 195), (5, 227), (16, 3) ]

/-- The distance table of 30_encoding.md R93, symbols 0 to 31 in order: (DEXT, DBASE). -/
def distTable : List (Nat × Nat) :=
  [
    (0, 1), (0, 2), (0, 3), (0, 4), (1, 5), (1, 7), (2, 9), (2, 13), (3, 17), (3, 25), (4, 33), (4, 49),
    (5, 65), (5, 97), (6, 129), (6, 193), (7, 257), (7, 385), (8, 513), (8, 769), (9, 1025), (9, 1537),
    (10, 2049), (10, 3073), (11, 4097), (11, 6145), (12, 8193), (12, 12289), (13, 16385), (13, 24577),
    (14, 32769), (14, 49153) ]

/-- LEXT(s) of R92, for LL symbols 257 to 285. -/
def lext (s : Nat) : Nat := (lengthTable.getD (s - 257) (0, 0)).1

/-- LBASE(s) of R92. -/
def lbase (s : Nat) : Nat := (lengthTable.getD (s - 257) (0, 0)).2

/-- DEXT(t) of R93, for D symbols 0 to 31. -/
def dext (t : Nat) : Nat := (distTable.getD t (0, 0)).1

/-- DBASE(t) of R93. -/
def dbase (t : Nat) : Nat := (distTable.getD t (0, 0)).2

/-- The length operand `l = LBASE(s) + extra` (43_block_decoder.md R171, 30_encoding.md R99). -/
def matchLength (s extra : Nat) : Nat := lbase s + extra

/-- The distance operand `d = DBASE(t) + extra` (R172, R99). -/
def matchDistance (t extra : Nat) : Nat := dbase t + extra

/-- Extra-bits width of a CL symbol (R84). -/
def clExt : Nat → Nat
  | 16 => 2
  | 17 => 3
  | 18 => 7
  | _ => 0

/-- `count16` and `count17` of R99: 3 plus the extra field. -/
def shortRun (extra : Nat) : Nat := 3 + extra

/-- `count18` of R99: 11 plus the extra field. -/
def longRun (extra : Nat) : Nat := 11 + extra

/-- `nlen = 257 + HLIT` (R81, R99). -/
def nlenOf (hlit : BitVec 5) : Nat := hlit.toNat + 257

/-- `ndist = 1 + HDIST` (R81, R99). -/
def ndistOf (hdist : BitVec 5) : Nat := hdist.toNat + 1

/-- `ncode = 4 + HCLEN` (R81, R99). -/
def ncodeOf (hclen : BitVec 4) : Nat := hclen.toNat + 4

/-- CLORDER (R82): the CL symbol whose length is transmitted at each position. -/
def clOrder : List Nat := [16, 17, 18, 0, 8, 7, 9, 6, 10, 5, 11, 4, 12, 3, 13, 2, 14, 1, 15]

/-- FIXED_LL (R89): the literal/length code lengths of a fixed block. -/
def fixedLL : List CodeLen :=
  List.replicate 144 8 ++ List.replicate 112 9 ++ List.replicate 24 7 ++ List.replicate 8 8

/-- FIXED_D (R91): every distance symbol has length 5. -/
def fixedD : List CodeLen := List.replicate 32 5

/-- The complement check of R152: `N == L xor 0xFFFF`. -/
def storedLenMatches (len nlen : BitVec 16) : Bool := nlen == (len ^^^ 0xFFFF#16)

end Sys2Proof
end

