-- ==== Sys2Proof/Machine/Reader.lean ====
section
/-! DEFINITION. The bit reader unit (40_bit_reader.md): FEED, READ_BITS, ALIGN_TO_BYTE and AVAIL as functions of its
three registers. An insufficient read answers `none` and so consumes nothing (R121). -/

namespace Sys2Proof

/-- `Avail()` (R118): `8 * len(inq) - bitoff`. -/
def Reader.avail (r : Reader) : Nat := 8 * r.inq.length - r.bitoff.toNat

/-- FEED(chunk) (R115): the bytes go to the tail of the queue; `bitoff` and `bitpos` stay. -/
def Reader.feed (chunk : List Byte) (r : Reader) : Reader := { r with inq := r.inq ++ chunk }

/-- One turn of READ_BITS's loop (R116): the bit of the head byte at `bitoff`, LSB first (20_memory.md R52), and the
reader after it. The head byte leaves when its eighth bit is taken (R119). On an empty queue nothing is taken. -/
def Reader.takeBit (r : Reader) : Bool × Reader :=
  match r.inq with
  | [] => (false, r)
  | b :: q =>
    (b.getLsbD r.bitoff.toNat,
      if r.bitoff = 7 then { inq := q, bitoff := 0, bitpos := r.bitpos + 1 }
      else { r with bitoff := r.bitoff + 1, bitpos := r.bitpos + 1 })

/-- READ_BITS's loop (R116): `n` bits, the first one bit 0 of the value. -/
def Reader.takeBits : Nat → Reader → Nat × Reader
  | 0, r => (0, r)
  | n + 1, r => ((r.takeBit.1).toNat + 2 * (takeBits n r.takeBit.2).1, (takeBits n r.takeBit.2).2)

/-- READ_BITS(n) (R116): the next `n` bits as an LSB-first unsigned value, or `none` for `suspend`. -/
def Reader.readBits (n : Nat) (r : Reader) : Option (Nat × Reader) :=
  if r.avail < n then none else some (r.takeBits n)

/-- ALIGN_TO_BYTE (R117): the rest of a partly consumed byte is discarded. -/
def Reader.align (r : Reader) : Reader :=
  if r.bitoff = 0 then r
  else { inq := r.inq.tail, bitoff := 0, bitpos := r.bitpos + (8 - r.bitoff.toNat) }

/-- The bits of a byte in the order they are consumed (20_memory.md R52). -/
def byteBits (b : Byte) : List Bool := (List.range 8).map b.getLsbD

/-- The bits not yet consumed, in order (20_memory.md R51): what READ_BITS will return from here on. -/
def Reader.bits (r : Reader) : List Bool := (r.inq.flatMap byteBits).drop r.bitoff.toNat

/-- Bytes that hold the given bits, the first bit as bit 0 of the first byte and the last byte filled up with zeros:
`cur` holds the `pos` bits of the byte begun. -/
def packBits (cur pos : Nat) : List Bool → List Byte
  | [] => if pos = 0 then [] else [BitVec.ofNat 8 cur]
  | b :: bs =>
    if pos = 7 then BitVec.ofNat 8 (cur + 128 * b.toNat) :: packBits 0 0 bs
    else packBits (cur + 2 ^ pos * b.toNat) (pos + 1) bs

/-- A reader at the first bit of a stream that begins with the given bits. -/
def Reader.ofBits (bs : List Bool) : Reader := { inq := packBits 0 0 bs, bitoff := 0, bitpos := 0 }

end Sys2Proof
end

