-- ==== Sys2Proof/Machine/Huffman.lean ====
section
/-! DEFINITION. The canonical Huffman decoder unit (41_huffman.md): BUILD in its five steps, and DECODE. A code is a
function of its length table (R130, 10_state.md R30), so no code is stored. -/

namespace Sys2Proof

/-- `count[b]` (R126): how many symbols have length `b`; symbols of length 0 are not counted. -/
def countLen (lens : List CodeLen) (b : Nat) : Nat :=
  if b = 0 then 0 else lens.countP (fun l => l.toNat == b)

/-- The loop of R127 from length `b` on, `fuel` lengths to go: `none` is over-subscribed, `some left` the number of
codewords of the last length left unused. -/
def codeSpace (count : Nat → Nat) : (fuel b left : Nat) → Option Nat
  | 0, _, left => some left
  | fuel + 1, b, left =>
    if 2 * left < count b then none else codeSpace count fuel (b + 1) (2 * left - count b)

/-- R127 for a whole table: lengths 1 to 15, `left` starting at 1. -/
def leftover (lens : List CodeLen) : Option Nat := codeSpace (countLen lens) Config.maxCodeLen 1 1

/-- `maxlen` of R128. -/
def maxLen (lens : List CodeLen) : Nat := lens.foldl (fun m l => max m l.toNat) 0

/-- The incomplete tables R128 accepts. -/
def acceptIncomplete (strict : Bool) (kind : CodeKind) (lens : List CodeLen) : Bool :=
  !strict && ((kind != .cl && maxLen lens == 1) || (kind == .d && maxLen lens == 0))

/-- The recurrence of R129 from length `b` on: the first code of each length. -/
def firstCodesFrom (count : Nat → Nat) : (fuel b code : Nat) → List Nat
  | 0, _, _ => []
  | fuel + 1, b, code =>
    2 * (code + count (b - 1)) :: firstCodesFrom count fuel (b + 1) (2 * (code + count (b - 1)))

/-- `next[0..15]` of R129; entry 0 is used by no symbol. -/
def firstCodes (lens : List CodeLen) : List Nat := 0 :: firstCodesFrom (countLen lens) Config.maxCodeLen 1 0

/-- R130: symbols in ascending order, each taking the next free value of its length. -/
def assignFrom (sym : Nat) (next : List Nat) : List CodeLen → Code
  | [] => []
  | l :: ls =>
    if l = 0 then assignFrom (sym + 1) next ls
    else { code := next.getD l.toNat 0, len := l.toNat, sym := sym } ::
      assignFrom (sym + 1) (next.set l.toNat (next.getD l.toNat 0 + 1)) ls

/-- The codewords of a length table (R129, R130): what BUILD returns when it accepts the table. -/
def codeOf (lens : List CodeLen) : Code := assignFrom 0 (firstCodes lens) lens

/-- Whether BUILD accepts a table (R127, R128). -/
def buildAccepts (strict : Bool) (kind : CodeKind) (lens : List CodeLen) : Bool :=
  match leftover lens with
  | none => false
  | some left => left == 0 || acceptIncomplete strict kind lens

/-- BUILD (R126 to R131): the code, or `none` where it raises `cause(kind)`. -/
def buildCode (strict : Bool) (kind : CodeKind) (lens : List CodeLen) : Option Code :=
  if buildAccepts strict kind lens then some (codeOf lens) else none

/-- `cause(kind)` (R134). -/
def CodeKind.cause : CodeKind → Cause
  | .ll => .litlenTree
  | .d => .distTree
  | .cl => .clTree

/-- DECODE's first test (R132): the symbol whose codeword is exactly the `l` bits `c`. -/
def Code.symbol (T : Code) (c l : Nat) : Option Nat :=
  (T.find? fun w => w.len == l && w.code == c).map Codeword.sym

/-- DECODE's second test (R132): the `l` bits `c` begin some longer codeword. -/
def Code.continues (T : Code) (c l : Nat) : Bool :=
  T.any fun w => decide (l < w.len) && w.code >>> (w.len - l) == c

/-- What DECODE answers (R132): a symbol, `suspend`, or FormatError(E_INVALID_CODE), with the reader after the bits
taken. -/
inductive SymResult where
  | sym (s : Nat) (r : Reader)
  | suspend
  | invalid (r : Reader)
  deriving DecidableEq, Repr

/-- DECODE's loop (R132) with the bits read so far; `fuel` bounds it, and 16 turns suffice because no codeword is
longer than 15 bits. -/
def decodeSymFrom (T : Code) : (fuel c l : Nat) → Reader → SymResult
  | 0, _, _, r => .invalid r
  | fuel + 1, c, l, r =>
    match T.symbol c l with
    | some s => .sym s r
    | none =>
      if T.continues c l then
        match r.readBits 1 with
        | none => .suspend
        | some (b, r') => decodeSymFrom T fuel (2 * c + b) (l + 1) r'
      else .invalid r

/-- DECODE(T) (R132). The test comes before each bit, so an empty code raises without reading (R133). -/
def decodeSym (T : Code) (r : Reader) : SymResult := decodeSymFrom T (Config.maxCodeLen + 1) 0 0 r

end Sys2Proof
end

