-- ==== Sys2Proof/WellFormed.lean ====
section
/-! DEFINITION. Well-formed instructions. An operand that is a bit field of the stream is a bit vector of that width,
so only the operands of internal operations have a range to check. -/

namespace Sys2Proof

/-- The bits of `v` begin the bits of `w`. -/
def Codeword.begins (v w : Codeword) : Bool :=
  decide (v.len ≤ w.len) && w.code >>> (w.len - v.len) == v.code

/-- A codeword BUILD can make: 1 to 15 bits, a value of that many bits, an LL, D or CL symbol (R125). -/
def Codeword.wf (w : Codeword) : Bool :=
  decide (1 ≤ w.len) && decide (w.len ≤ Config.maxCodeLen) && decide (w.code < 2 ^ w.len) &&
    decide (w.sym < CodeKind.size .ll)

/-- No codeword begins another one (30_encoding.md R94). -/
def Code.prefixFree : Code → Bool
  | [] => true
  | w :: ws => ws.all (fun v => !v.begins w && !w.begins v) && Code.prefixFree ws

/-- Every symbol has at most one codeword, and symbols ascend (41_huffman.md R130). -/
def Code.symbolsAscend : Code → Bool
  | [] => true
  | w :: ws => ws.all (fun v => decide (w.sym < v.sym)) && Code.symbolsAscend ws

/-- A code as BUILD returns one (R125 to R130). -/
def Code.wf (T : Code) : Bool := T.all Codeword.wf && T.prefixFree && T.symbolsAscend

/-- Well-formed instructions: READ_BITS is 0 to 16 bits wide (R116, 00_scope.md R8), BUILD's table has one entry for
each symbol of its alphabet (R125), DECODE's operand is a code (R132), and COPY_MATCH has a distance of 1 to 65536 and
a length of 3 to 65538 (R141). -/
def Instr.wf : Instr → Bool
  | .readBits n => decide (n ≤ 16)
  | .build kind lens => lens.length == kind.size
  | .decode T => T.wf
  | .copyMatch d l => decide (1 ≤ d) && decide (d ≤ 65536) && decide (3 ≤ l) && decide (l ≤ 65538)
  | .blkStored _ | .blkFixed _ | .blkDynamic _ | .blkReserved _ | .storedHdr _ _ | .storedByte _ | .storedEnd
  | .dynCounts _ _ _ | .clLen _ | .clSet _ | .clRep16 _ | .clZero17 _ | .clZero18 _ | .lit _ | .eob | .len257
  | .len258 | .len259 | .len260 | .len261 | .len262 | .len263 | .len264 | .len265 _ | .len266 _ | .len267 _
  | .len268 _ | .len269 _ | .len270 _ | .len271 _ | .len272 _ | .len273 _ | .len274 _ | .len275 _ | .len276 _
  | .len277 _ | .len278 _ | .len279 _ | .len280 _ | .len281 _ | .len282 _ | .len283 _ | .len284 _ | .len285 _
  | .invalid286 | .invalid287 | .dist0 | .dist1 | .dist2 | .dist3 | .dist4 _ | .dist5 _ | .dist6 _ | .dist7 _
  | .dist8 _ | .dist9 _ | .dist10 _ | .dist11 _ | .dist12 _ | .dist13 _ | .dist14 _ | .dist15 _ | .dist16 _
  | .dist17 _ | .dist18 _ | .dist19 _ | .dist20 _ | .dist21 _ | .dist22 _ | .dist23 _ | .dist24 _ | .dist25 _
  | .dist26 _ | .dist27 _ | .dist28 _ | .dist29 _ | .dist30 _ | .dist31 _ | .feed _ | .alignToByte | .avail
  | .append _ | .reset | .decompress _ | .eof => true

/-- `i` is well formed. -/
abbrev WellFormed (i : Instr) : Prop := i.wf = true

end Sys2Proof
end

