-- ==== Sys2Proof/Decode.lean ====
section
/-! DEFINITION. The decoder, total on every reader, and after it the encoder. Decoding is contextual (30_encoding.md
R100): `Expect` says which format the next element has, and the code in force where its codeword is Huffman-coded. -/

namespace Sys2Proof

/-- The format of the element expected next (R100). -/
inductive Expect where
  /-- A 3-bit block header (R76). -/
  | blockHeader
  /-- LEN and NLEN, 32 bits (R79). -/
  | storedHdr
  /-- One raw byte (R153). -/
  | storedByte
  /-- The end of a stored block, no bits (R154). -/
  | storedEnd
  /-- HLIT, HDIST, HCLEN, 14 bits (R81). -/
  | dynCounts
  /-- One 3-bit CL length (R83). -/
  | clLen
  /-- A CL symbol coded with `T` (R84). -/
  | clSym (T : Code)
  /-- An LL symbol coded with `T` (R86). -/
  | llSym (T : Code)
  /-- A D symbol coded with `T` (R87). -/
  | dSym (T : Code)
  deriving DecidableEq, Repr

/-- What decoding answers: an element and the reader after its last bit; or `suspend` (bits are missing, nothing is
consumed, R121); or bits that are no codeword of the code in force (R132), with the reader after the bits taken. -/
inductive Decoded where
  | found (i : Instr) (r : Reader)
  | suspend
  | invalid (r : Reader)
  deriving DecidableEq, Repr

/-- A read that may suspend, as a decoding. -/
def Decoded.ofRead : Option (Instr × Reader) → Decoded
  | none => .suspend
  | some (i, r) => .found i r

/-- The element a block header is, by BTYPE (R77, 00_scope.md R17). -/
def headerInstr (bfinal : Bool) : Nat → Instr
  | 0 => .blkStored bfinal
  | 1 => .blkFixed bfinal
  | 2 => .blkDynamic bfinal
  | _ => .blkReserved bfinal

/-- BFINAL, then BTYPE (R76, R150). -/
def decodeHeader (r : Reader) : Decoded :=
  .ofRead <| (r.readBits 1).bind fun f => (f.2.readBits 2).map fun t => (headerInstr (f.1 == 1) t.1, t.2)

/-- LEN, then NLEN (R79, R151). -/
def decodeStoredHdr (r : Reader) : Decoded :=
  .ofRead <| (r.readBits 16).bind fun l => (l.2.readBits 16).map fun n =>
    (.storedHdr (BitVec.ofNat 16 l.1) (BitVec.ofNat 16 n.1), n.2)

/-- One data byte (R153). -/
def decodeStoredByte (r : Reader) : Decoded :=
  .ofRead <| (r.readBits 8).map fun b => (.storedByte (BitVec.ofNat 8 b.1), b.2)

/-- HLIT, then HDIST, then HCLEN (R81, R156). -/
def decodeDynCounts (r : Reader) : Decoded :=
  .ofRead <| (r.readBits 5).bind fun a => (a.2.readBits 5).bind fun b => (b.2.readBits 4).map fun c =>
    (.dynCounts (BitVec.ofNat 5 a.1) (BitVec.ofNat 5 b.1) (BitVec.ofNat 4 c.1), c.2)

/-- One CL length (R83, R158). -/
def decodeClLen (r : Reader) : Decoded :=
  .ofRead <| (r.readBits 3).map fun l => (.clLen (BitVec.ofNat 3 l.1), l.2)

/-- The element of a CL symbol with its extra field (R84). -/
def clInstr (s extra : Nat) : Option Instr :=
  match s with
  | 16 => some (.clRep16 (BitVec.ofNat 2 extra))
  | 17 => some (.clZero17 (BitVec.ofNat 3 extra))
  | 18 => some (.clZero18 (BitVec.ofNat 7 extra))
  | s => if s < 16 then some (.clSet (BitVec.ofNat 4 s)) else none

/-- The element of LL symbol 257 to 285 with its extra field (R92). -/
def lenInstr (s extra : Nat) : Option Instr :=
  match s with
  | 257 => some .len257
  | 258 => some .len258
  | 259 => some .len259
  | 260 => some .len260
  | 261 => some .len261
  | 262 => some .len262
  | 263 => some .len263
  | 264 => some .len264
  | 265 => some (.len265 (BitVec.ofNat 1 extra))
  | 266 => some (.len266 (BitVec.ofNat 1 extra))
  | 267 => some (.len267 (BitVec.ofNat 1 extra))
  | 268 => some (.len268 (BitVec.ofNat 1 extra))
  | 269 => some (.len269 (BitVec.ofNat 2 extra))
  | 270 => some (.len270 (BitVec.ofNat 2 extra))
  | 271 => some (.len271 (BitVec.ofNat 2 extra))
  | 272 => some (.len272 (BitVec.ofNat 2 extra))
  | 273 => some (.len273 (BitVec.ofNat 3 extra))
  | 274 => some (.len274 (BitVec.ofNat 3 extra))
  | 275 => some (.len275 (BitVec.ofNat 3 extra))
  | 276 => some (.len276 (BitVec.ofNat 3 extra))
  | 277 => some (.len277 (BitVec.ofNat 4 extra))
  | 278 => some (.len278 (BitVec.ofNat 4 extra))
  | 279 => some (.len279 (BitVec.ofNat 4 extra))
  | 280 => some (.len280 (BitVec.ofNat 4 extra))
  | 281 => some (.len281 (BitVec.ofNat 5 extra))
  | 282 => some (.len282 (BitVec.ofNat 5 extra))
  | 283 => some (.len283 (BitVec.ofNat 5 extra))
  | 284 => some (.len284 (BitVec.ofNat 5 extra))
  | 285 => some (.len285 (BitVec.ofNat 16 extra))
  | _ => none

/-- The element of an LL symbol with its extra field (R86). -/
def llInstr (s extra : Nat) : Option Instr :=
  if s < 256 then some (.lit (BitVec.ofNat 8 s))
  else if s = 256 then some .eob
  else if s = 286 then some .invalid286
  else if s = 287 then some .invalid287
  else lenInstr s extra

/-- Extra-bits width of an LL symbol: LEXT for a length symbol, 0 for the others (R86, R92). -/
def llExt (s : Nat) : Nat := if s < 257 then 0 else if s < 286 then lext s else 0

/-- The element of D symbol 0 to 31 with its extra field (R93). -/
def distInstr (t extra : Nat) : Option Instr :=
  match t with
  | 0 => some .dist0
  | 1 => some .dist1
  | 2 => some .dist2
  | 3 => some .dist3
  | 4 => some (.dist4 (BitVec.ofNat 1 extra))
  | 5 => some (.dist5 (BitVec.ofNat 1 extra))
  | 6 => some (.dist6 (BitVec.ofNat 2 extra))
  | 7 => some (.dist7 (BitVec.ofNat 2 extra))
  | 8 => some (.dist8 (BitVec.ofNat 3 extra))
  | 9 => some (.dist9 (BitVec.ofNat 3 extra))
  | 10 => some (.dist10 (BitVec.ofNat 4 extra))
  | 11 => some (.dist11 (BitVec.ofNat 4 extra))
  | 12 => some (.dist12 (BitVec.ofNat 5 extra))
  | 13 => some (.dist13 (BitVec.ofNat 5 extra))
  | 14 => some (.dist14 (BitVec.ofNat 6 extra))
  | 15 => some (.dist15 (BitVec.ofNat 6 extra))
  | 16 => some (.dist16 (BitVec.ofNat 7 extra))
  | 17 => some (.dist17 (BitVec.ofNat 7 extra))
  | 18 => some (.dist18 (BitVec.ofNat 8 extra))
  | 19 => some (.dist19 (BitVec.ofNat 8 extra))
  | 20 => some (.dist20 (BitVec.ofNat 9 extra))
  | 21 => some (.dist21 (BitVec.ofNat 9 extra))
  | 22 => some (.dist22 (BitVec.ofNat 10 extra))
  | 23 => some (.dist23 (BitVec.ofNat 10 extra))
  | 24 => some (.dist24 (BitVec.ofNat 11 extra))
  | 25 => some (.dist25 (BitVec.ofNat 11 extra))
  | 26 => some (.dist26 (BitVec.ofNat 12 extra))
  | 27 => some (.dist27 (BitVec.ofNat 12 extra))
  | 28 => some (.dist28 (BitVec.ofNat 13 extra))
  | 29 => some (.dist29 (BitVec.ofNat 13 extra))
  | 30 => some (.dist30 (BitVec.ofNat 14 extra))
  | 31 => some (.dist31 (BitVec.ofNat 14 extra))
  | _ => none

/-- A codeword of `T`, then its symbol's extra field at once (R88), as one element. A symbol outside the alphabet has
no element; BUILD makes no such codeword. -/
def decodeCoded (T : Code) (ext : Nat → Nat) (elem : Nat → Nat → Option Instr) (r : Reader) : Decoded :=
  match decodeSym T r with
  | .suspend => .suspend
  | .invalid r' => .invalid r'
  | .sym s r' =>
    match r'.readBits (ext s) with
    | none => .suspend
    | some (e, r'') =>
      match elem s e with
      | some i => .found i r''
      | none => .invalid r''

/-- The decoder. -/
def decode (e : Expect) (r : Reader) : Decoded :=
  match e with
  | .blockHeader => decodeHeader r
  | .storedHdr => decodeStoredHdr r
  | .storedByte => decodeStoredByte r
  | .storedEnd => .found .storedEnd r
  | .dynCounts => decodeDynCounts r
  | .clLen => decodeClLen r
  | .clSym T => decodeCoded T clExt clInstr r
  | .llSym T => decodeCoded T llExt llInstr r
  | .dSym T => decodeCoded T dext distInstr r

/-! ### The encoder -/

/-- An `n`-bit field as it stands in the stream, LSB first (20_memory.md R53). -/
def fieldBits (n v : Nat) : List Bool := (List.range n).map v.testBit

/-- A codeword as it stands in the stream, MSB first (20_memory.md R54). -/
def Codeword.bits (w : Codeword) : List Bool := (fieldBits w.len w.code).reverse

/-- The codeword of a symbol of `T`, if it has one. -/
def Code.codeword (T : Code) (s : Nat) : Option Codeword := T.find? fun w => w.sym == s

/-- The CL symbol and extra field an element is (R84). -/
def clSymbol : Instr → Option (Nat × Nat)
  | .clSet v => some (v.toNat, 0)
  | .clRep16 e => some (16, e.toNat)
  | .clZero17 e => some (17, e.toNat)
  | .clZero18 e => some (18, e.toNat)
  | _ => none

/-- The LL symbol and extra field an element is (R86, R92). -/
def llSymbol : Instr → Option (Nat × Nat)
  | .lit b => some (b.toNat, 0)
  | .eob => some (256, 0)
  | .len257 => some (257, 0)
  | .len258 => some (258, 0)
  | .len259 => some (259, 0)
  | .len260 => some (260, 0)
  | .len261 => some (261, 0)
  | .len262 => some (262, 0)
  | .len263 => some (263, 0)
  | .len264 => some (264, 0)
  | .len265 e => some (265, e.toNat)
  | .len266 e => some (266, e.toNat)
  | .len267 e => some (267, e.toNat)
  | .len268 e => some (268, e.toNat)
  | .len269 e => some (269, e.toNat)
  | .len270 e => some (270, e.toNat)
  | .len271 e => some (271, e.toNat)
  | .len272 e => some (272, e.toNat)
  | .len273 e => some (273, e.toNat)
  | .len274 e => some (274, e.toNat)
  | .len275 e => some (275, e.toNat)
  | .len276 e => some (276, e.toNat)
  | .len277 e => some (277, e.toNat)
  | .len278 e => some (278, e.toNat)
  | .len279 e => some (279, e.toNat)
  | .len280 e => some (280, e.toNat)
  | .len281 e => some (281, e.toNat)
  | .len282 e => some (282, e.toNat)
  | .len283 e => some (283, e.toNat)
  | .len284 e => some (284, e.toNat)
  | .len285 e => some (285, e.toNat)
  | .invalid286 => some (286, 0)
  | .invalid287 => some (287, 0)
  | _ => none

/-- The D symbol and extra field an element is (R93). -/
def dSymbol : Instr → Option (Nat × Nat)
  | .dist0 => some (0, 0)
  | .dist1 => some (1, 0)
  | .dist2 => some (2, 0)
  | .dist3 => some (3, 0)
  | .dist4 e => some (4, e.toNat)
  | .dist5 e => some (5, e.toNat)
  | .dist6 e => some (6, e.toNat)
  | .dist7 e => some (7, e.toNat)
  | .dist8 e => some (8, e.toNat)
  | .dist9 e => some (9, e.toNat)
  | .dist10 e => some (10, e.toNat)
  | .dist11 e => some (11, e.toNat)
  | .dist12 e => some (12, e.toNat)
  | .dist13 e => some (13, e.toNat)
  | .dist14 e => some (14, e.toNat)
  | .dist15 e => some (15, e.toNat)
  | .dist16 e => some (16, e.toNat)
  | .dist17 e => some (17, e.toNat)
  | .dist18 e => some (18, e.toNat)
  | .dist19 e => some (19, e.toNat)
  | .dist20 e => some (20, e.toNat)
  | .dist21 e => some (21, e.toNat)
  | .dist22 e => some (22, e.toNat)
  | .dist23 e => some (23, e.toNat)
  | .dist24 e => some (24, e.toNat)
  | .dist25 e => some (25, e.toNat)
  | .dist26 e => some (26, e.toNat)
  | .dist27 e => some (27, e.toNat)
  | .dist28 e => some (28, e.toNat)
  | .dist29 e => some (29, e.toNat)
  | .dist30 e => some (30, e.toNat)
  | .dist31 e => some (31, e.toNat)
  | _ => none

/-- A coded element: the symbol's codeword of `T`, then the extra field (R88). -/
def encodeCoded (T : Code) (ext : Nat → Nat) (se : Option (Nat × Nat)) : Option (List Bool) :=
  se.bind fun p => (T.codeword p.1).map fun w => w.bits ++ fieldBits (ext p.1) p.2

/-- The bits of an element where the format `e` is expected: `none` for an element of another format, for a symbol
without a codeword in the code in force, and for internal operations and host transactions, which have no bits (R100,
decision D20). -/
def encode (e : Expect) (i : Instr) : Option (List Bool) :=
  match e with
  | .blockHeader =>
    match i with
    | .blkStored f => some (fieldBits 1 f.toNat ++ fieldBits 2 0)
    | .blkFixed f => some (fieldBits 1 f.toNat ++ fieldBits 2 1)
    | .blkDynamic f => some (fieldBits 1 f.toNat ++ fieldBits 2 2)
    | .blkReserved f => some (fieldBits 1 f.toNat ++ fieldBits 2 3)
    | _ => none
  | .storedHdr =>
    match i with
    | .storedHdr l n => some (fieldBits 16 l.toNat ++ fieldBits 16 n.toNat)
    | _ => none
  | .storedByte =>
    match i with
    | .storedByte b => some (fieldBits 8 b.toNat)
    | _ => none
  | .storedEnd =>
    match i with
    | .storedEnd => some []
    | _ => none
  | .dynCounts =>
    match i with
    | .dynCounts a b c => some (fieldBits 5 a.toNat ++ fieldBits 5 b.toNat ++ fieldBits 4 c.toNat)
    | _ => none
  | .clLen =>
    match i with
    | .clLen l => some (fieldBits 3 l.toNat)
    | _ => none
  | .clSym T => encodeCoded T clExt (clSymbol i)
  | .llSym T => encodeCoded T llExt (llSymbol i)
  | .dSym T => encodeCoded T dext (dSymbol i)

/-- The pseudo-instruction MATCH l, d (R111): its length symbol, the least of 257 to 284 whose range holds `l`, or 285
for a length above 258. -/
def lengthSymbolOf (l : Nat) : Nat :=
  if 258 < l then 285
  else ((List.range 28).map (· + 257)).find? (fun s => decide (l < lbase s + 2 ^ lext s)) |>.getD 284

/-- The distance symbol of MATCH l, d (R111): the one whose range holds `d`. -/
def distSymbolOf (d : Nat) : Nat :=
  ((List.range 32).find? fun t => decide (d < dbase t + 2 ^ dext t)) |>.getD 31

/-- The expansion of MATCH l, d (R111): a LEN element, then a DIST element. Outside 3 ≤ l ≤ 65538 and 1 ≤ d ≤ 65536 the spec
gives no expansion; here the nearest symbol with the low bits of the difference is answered: a DESIGN CHOICE (log entry
20). -/
def expandMatch (l d : Nat) : Option (Instr × Instr) :=
  (lenInstr (lengthSymbolOf l) (l - lbase (lengthSymbolOf l))).bind fun i =>
    (distInstr (distSymbolOf d) (d - dbase (distSymbolOf d))).map fun j => (i, j)

/-! ### The opcode table's own numbering -/

/-- The complete CL code of 95_test_vectors.md ("CLSTD"): 4 bits for symbols 0 to 12, 5 bits for 13 to 18. It stands
here as a code in which every CL symbol can be spelled. -/
def clStdLens : List CodeLen := List.replicate 13 4 ++ List.replicate 6 5

/-- The format and the bits that a word of spec/opcode_table.json stands for. A coded row's word is the symbol, so it
is spelled with a codeword of a complete code (the fixed codes; CLSTD for CL symbols), and every bit after it is 0. The
formats' numberings overlap and a word does not say its format: a row whose match value IS the word comes before a row
whose mask only covers it, and the table's first row comes before a later one (log entry 10). -/
def tableWord (nbits w : Nat) : Option (Expect × List Bool) :=
  let coded (T : Code) (s : Nat) : List Bool :=
    (((T.codeword s).map Codeword.bits).getD []) ++ List.replicate 16 false
  match nbits with
  | 0 => some (.storedEnd, [])
  | 8 =>
    if w = 0 ∨ w = 2 ∨ w = 4 ∨ w = 6 then some (.blockHeader, fieldBits 8 w)
    else if w = 16 ∨ w = 17 ∨ w = 18 then some (.clSym (codeOf clStdLens), coded (codeOf clStdLens) w)
    else if w < 32 then some (.dSym (codeOf fixedD), coded (codeOf fixedD) w)
    else none
  | 16 =>
    if 18 ≤ w ∧ w < 32 then some (.dSym (codeOf fixedD), coded (codeOf fixedD) w)
    else if w < 288 then some (.llSym (codeOf fixedLL), coded (codeOf fixedLL) w)
    else none
  | 32 => some (.storedHdr, fieldBits 32 w)
  | _ => none

/-- The instruction the decoder reads from a word of spec/opcode_table.json. -/
def decodeTableWord (nbits w : Nat) : Option Instr :=
  (tableWord nbits w).bind fun p =>
    match decode p.1 (Reader.ofBits p.2) with
    | .found i _ => some i
    | _ => none

end Sys2Proof
end

