-- ==== Sys2Proof/Machine/State.lean ====
section
/-! DEFINITION. The state of one session (10_state.md) as plain data, the reasons a step can stop, and the state right
after RESET. -/

namespace Sys2Proof.Machine

/-- The control state (10_state.md R24). -/
inductive Fsm where
  /-- HDR: the next element is a block header. -/
  | hdr
  /-- STORED: `rem` raw bytes of a stored block remain. -/
  | stored
  /-- BODY: the next element is an LL symbol of the current Huffman block. -/
  | body
  /-- DONE: the final block has ended. -/
  | done
  /-- FAILED: an error was raised; sticky. -/
  | failed
  deriving DecidableEq, Repr

/-- `kind` (R27): whether the current Huffman block's codes are the fixed ones. -/
inductive BlockKind where
  | fixed
  | dynamic
  deriving DecidableEq, Repr

/-- The window memory: (address, byte) pairs, addresses strictly rising. An address that is not listed has no value:
the reset contents are unspecified and never observable (R31, 20_memory.md R69; log entry 1). -/
abbrev Memory := List Host.Cell

/-- The transient state of a dynamic header (R38), and how many CL lengths are read (the index of R158's loop). -/
structure DynHeader where
  nlen  : Nat
  ndist : Nat
  ncode : Nat
  clLen : List CodeLen
  nread : Nat
  lens  : List CodeLen
  deriving DecidableEq, Repr

/-- The transient state outside a dynamic header (log entry 5). -/
def DynHeader.blank : DynHeader :=
  { nlen := 0, ndist := 0, ncode := 0, clLen := List.replicate 19 0, nread := 0, lens := [] }

/-- The rollback point (R39; 44_fsm_host.md R192): inq, bitoff, bitpos, fsm, bfinal, rem, kind, ll_len, dist_len, wpos,
total and the length of out. -/
structure Snapshot where
  rd      : Reader
  fsm     : Fsm
  bfinal  : Bool
  rem     : BitVec 16
  kind    : BlockKind
  llLen   : List CodeLen
  distLen : List CodeLen
  wpos    : BitVec 16
  total   : Nat
  outLen  : Nat
  deriving DecidableEq, Repr

/-- Where the current DECOMPRESS stands (44_fsm_host.md R191, R195; 30_encoding.md R100): the model's own register, log
entry 4. -/
inductive Phase where
  /-- No DECOMPRESS is running. -/
  | idle
  /-- A DECOMPRESS is running and no unit is under way. -/
  | between
  /-- In a HDR_UNIT of a stored block: LEN and NLEN are next. -/
  | storedHdr
  /-- In a HDR_UNIT of a dynamic block: the counts are next. -/
  | dynCounts
  /-- In a HDR_UNIT of a dynamic block: a CL length is next. -/
  | clLens
  /-- In a HDR_UNIT of a dynamic block: a CL symbol is next. -/
  | clSyms
  /-- In a BODY_UNIT after a length symbol: the distance is next. -/
  | dist
  deriving DecidableEq, Repr

/-- The host's transactions (44_fsm_host.md §2 and §4). -/
inductive HostCall where
  | reset
  | decompress (chunk : List Byte)
  | eof
  deriving DecidableEq, Repr

/-- What a transaction hands to the host (R209, R206). `badData` is the one error value the host sees; its message is
`Cause.message` of the cause kept here (60_exceptions.md R226). -/
inductive HostResult where
  | ok (bytes : List Byte)
  | badData (cause : Cause)
  | eof (flag : Bool)
  deriving DecidableEq, Repr

/-- The value the last internal operation returned when it was run as an instruction (log entry 8). -/
inductive OpResult where
  | none
  /-- READ_BITS's value (R116). -/
  | bits (v : Nat)
  /-- AVAIL's count (R118). -/
  | count (n : Nat)
  /-- BUILD's code (R130). -/
  | code (T : Code)
  /-- DECODE's symbol (R132). -/
  | symbol (s : Nat)
  /-- The operation suspended (R121). -/
  | suspended
  /-- The operation raised (R225). -/
  | raised (c : Cause)
  deriving DecidableEq, Repr

/-- The state of one session, of the call it is serving and of the host's port. -/
structure State where
  /-- inq, bitoff, bitpos (R21 to R23). -/
  rd      : Reader
  /-- R24. -/
  fsm     : Fsm
  /-- R25. -/
  bfinal  : Bool
  /-- R26. -/
  rem     : BitVec 16
  /-- R27. -/
  kind    : BlockKind
  /-- ll_len (R28). -/
  llLen   : List CodeLen
  /-- dist_len (R29). -/
  distLen : List CodeLen
  /-- The window (R31). -/
  win     : Memory
  /-- R32. -/
  wpos    : BitVec 16
  /-- The output of the current call (R33). -/
  out     : List Byte
  /-- R34. -/
  total   : Nat
  /-- R36. -/
  err     : Option Cause
  /-- The rollback point of the unit under way (R39). -/
  snap    : Option Snapshot
  /-- The dynamic header under way (R38). -/
  hdr     : DynHeader
  /-- The length operand of the MATCH under way (43_block_decoder.md R170). -/
  mlen    : Nat
  /-- Where the current call stands. -/
  phase   : Phase
  /-- The host's transactions not yet begun, oldest first. -/
  calls   : List HostCall
  /-- What the host has been handed since RESET, in call order. -/
  results : List HostResult
  /-- The last internal operation's value. -/
  opRes   : OpResult
  /-- The named parameters (00_scope.md R9). -/
  cfg     : Params
  deriving DecidableEq, Repr

/-- Why a step stops although the instruction has a meaning. -/
inductive Fault where
  /-- Raised by DIST_0 to DIST_31 and COPY_MATCH when the copy reads a window byte that nothing has written. The spec
  leaves such a byte's value unspecified and shows that no copy reads one (R31, R69), so only a state that no run
  reaches faults. Safe: the model stops where the hardware would go on (log entry 1). -/
  | windowByteNeverWritten
  deriving DecidableEq, Repr

/-- Why an instruction has no meaning. -/
inductive Refusal where
  /-- Raised by an arm of exec that has no meaning yet (no arm is left). Safe. -/
  | notModelled (mnemonic : String)
  /-- Raised by DECOMPRESS while another DECOMPRESS runs: 70_reset_and_hazards.md R255 "The model defines no result for
  overlapping calls". The step function never issues one. Safe (log entry 12). -/
  | overlappingCall
  deriving DecidableEq, Repr

/-- The session right after RESET (R42), with no transaction issued. `kind`, `llLen` and `distLen` are unspecified by
the spec and are DESIGN CHOICES (log entry 2). -/
def State.reset : State where
  rd      := { inq := [], bitoff := 0, bitpos := 0 }
  fsm     := .hdr
  bfinal  := false
  rem     := 0
  kind    := .fixed
  llLen   := List.replicate 288 0
  distLen := List.replicate 32 0
  win     := []
  wpos    := 0
  out     := []
  total   := 0
  err     := none
  snap    := none
  hdr     := DynHeader.blank
  mlen    := 0
  phase   := .idle
  calls   := []
  results := []
  opRes   := .none
  cfg     := {}

end Sys2Proof.Machine
end

