-- ==== Sys2Proof/Machine/Flags.lean ====
section
/-! DEFINITION. The flags and the status view (10_state.md R35, R37, R40), and the numbers, kinds and message of the
cause codes (60_exceptions.md R220 to R226). All are functions of the state; no transaction writes them. -/

namespace Sys2Proof

/-- The number of a cause code (R221). -/
def Cause.number : Cause → Nat
  | .reservedBtype => 1
  | .storedNlen => 2
  | .hlitRange => 3
  | .clTree => 4
  | .clRepeatNoPrev => 5
  | .clOverrun => 6
  | .missingEob => 7
  | .litlenTree => 8
  | .distTree => 9
  | .invalidCode => 10
  | .invalidLitlenSym => 11
  | .distTooFar => 12
  | .trailingData => 13
  | .sessionFailed => 14

/-- The kinds of error (R220). -/
inductive ErrorKind where
  | formatError
  | distanceTooFar
  | sessionFailed
  deriving DecidableEq, Repr

/-- The kind of a cause code (R221 to R223). -/
def Cause.kind : Cause → ErrorKind
  | .distTooFar => .distanceTooFar
  | .sessionFailed => .sessionFailed
  | .reservedBtype | .storedNlen | .hlitRange | .clTree | .clRepeatNoPrev | .clOverrun | .missingEob | .litlenTree
  | .distTree | .invalidCode | .invalidLitlenSym | .trailingData => .formatError

/-- MESSAGE(code) (R226): the fixed text, then DETAIL_TEXT. -/
def Cause.message (c : Cause) : String := "Bad Deflate64 data: " ++ Config.detailText c

namespace Machine

/-- The message of the error a call handed to the host, if it handed one (44_fsm_host.md R209). -/
def HostResult.message : HostResult → Option String
  | .badData c => some c.message
  | .ok _ => none
  | .eof _ => none

/-- `eof = (fsm == DONE)` (R35). -/
def State.eof (s : State) : Bool := s.fsm == .done

/-- STATUS.STATE (R37). -/
def Fsm.code : Fsm → BitVec 3
  | .hdr => 0
  | .stored => 1
  | .body => 2
  | .done => 3
  | .failed => 4

/-- STATUS.KIND (R37): in BODY, 1 for DYNAMIC. -/
def State.statusKind (s : State) : BitVec 1 :=
  if s.fsm = .body ∧ s.kind = .dynamic then 1 else 0

/-- STATUS.BFINAL (R37): `bfinal` in STORED and BODY, 1 in DONE, 0 in HDR and FAILED. -/
def State.statusBfinal (s : State) : BitVec 1 :=
  match s.fsm with
  | .stored | .body => BitVec.ofBool s.bfinal
  | .done => 1
  | .hdr | .failed => 0

/-- STATUS.ERR (R37): in FAILED, the cause number of `err`. -/
def State.statusErr (s : State) : BitVec 4 :=
  match s.fsm, s.err with
  | .failed, some c => BitVec.ofNat 4 c.number
  | _, _ => 0

/-- STATUS.REM (R37): in STORED, `rem`. -/
def State.statusRem (s : State) : BitVec 16 := if s.fsm = .stored then s.rem else 0

/-- STATUS (R37): REM, 0, ERR, 0, EOF, BFINAL, KIND, STATE from bit 31 down. -/
def State.status (s : State) : BitVec 32 :=
  s.statusRem ++ (0 : BitVec 4) ++ s.statusErr ++ (0 : BitVec 2) ++ BitVec.ofBool s.eof ++ s.statusBfinal ++
    s.statusKind ++ s.fsm.code

/-- The bytes the calls so far returned, in call order: the output stream (20_memory.md R56). -/
def outputStream : List HostResult → List Byte
  | [] => []
  | .ok bytes :: rs => bytes ++ outputStream rs
  | .badData _ :: rs => outputStream rs
  | .eof _ :: rs => outputStream rs

end Machine
end Sys2Proof
end

