-- ==== Sys2Proof/Machine/Memory.lean ====
section
/-! DEFINITION. The window memory (20_memory.md R57, R58): its canonical form, and reading and writing one byte. -/

namespace Sys2Proof.Machine

/-- Addresses strictly rise, from `least` on, and stay below the window's size. -/
def Memory.wfFrom (least : Nat) : Memory → Bool
  | [] => true
  | c :: m => decide (least ≤ c.1) && decide (c.1 < Config.windowSize) && Memory.wfFrom (c.1 + 1) m

/-- The canonical form: strictly rising addresses of the window (R57). An unlisted address has no value, so no entry can
equal what an unlisted address reads as. -/
def Memory.wf (m : Memory) : Bool := Memory.wfFrom 0 m

/-- The byte at a key, if one was written. -/
def Memory.get (m : Memory) (a : Nat) : Option Byte :=
  match m with
  | [] => none
  | c :: m => if c.1 = a then some c.2 else Memory.get m a

/-- The memory with one byte written, in canonical form. -/
def Memory.set (m : Memory) (a : Nat) (v : Byte) : Memory :=
  match m with
  | [] => [(a, v)]
  | c :: m =>
    if a < c.1 then (a, v) :: c :: m
    else if a = c.1 then (a, v) :: m
    else c :: Memory.set m a v

/-- `MemRead(a, 1)` (R58): the byte `win[a mod 65536]`; a 16-bit address wraps by itself. -/
def Memory.read (m : Memory) (a : BitVec 16) : Option Byte := m.get a.toNat

/-- `MemWrite(a, 1, v)` (R58). -/
def Memory.write (m : Memory) (a : BitVec 16) (v : Byte) : Memory := m.set a.toNat v

end Sys2Proof.Machine
end

