-- ==== Sys2Proof/Machine/Ops.lean ====
section
/-! DEFINITION. The named operations the meanings share: the bit reader and the window on State, the rollback point,
ending a call, suspending, and taking an exception. There is no return from one (60_exceptions.md R230). -/

namespace Sys2Proof.Machine

/-- How an instruction's meaning ends. -/
abbrev Result := Host.Outcome State Fault Refusal

/-! ### Units (44_fsm_host.md R191, R192) -/

/-- The rollback point of a unit that begins now (10_state.md R39). -/
def State.capture (s : State) : Snapshot where
  rd      := s.rd
  fsm     := s.fsm
  bfinal  := s.bfinal
  rem     := s.rem
  kind    := s.kind
  llLen   := s.llLen
  distLen := s.distLen
  wpos    := s.wpos
  total   := s.total
  outLen  := s.out.length

/-- Every recorded element takes its recorded value again (R192). -/
def State.rollback (s : State) : State :=
  match s.snap with
  | none => s
  | some k =>
    { s with
      rd := k.rd, fsm := k.fsm, bfinal := k.bfinal, rem := k.rem, kind := k.kind, llLen := k.llLen,
      distLen := k.distLen, wpos := k.wpos, total := k.total, out := s.out.take k.outLen }

/-- A unit has committed (R191): the call stands between two units and the unit's transient values are gone (R38). -/
def State.commit (s : State) : State :=
  { s with phase := .between, snap := none, hdr := DynHeader.blank, mlen := 0 }

/-- The current call ends and hands `r` to the host; `out` does not persist (10_state.md R33) and neither do a unit's
transient values (R38). With no call running nothing is handed over. -/
def State.endCall (r : HostResult) (s : State) : State :=
  if s.phase = .idle then { s with out := [] }
  else
    { s with
      phase := .idle, snap := none, hdr := DynHeader.blank, mlen := 0, out := [], results := s.results ++ [r] }

/-- `suspend` (R192, R224): the unit under way is abandoned, every recorded element restored, and the call ends normally
with the bytes its committed units emitted. With no call running there is nothing to abandon. -/
def State.suspend (s : State) : State :=
  if s.phase = .idle then s else s.rollback.endCall (.ok s.rollback.out)

/-! ### Taking an exception (60_exceptions.md R225) -/

/-- `raise K(code)`: the cause is recorded and the session fails, unless it already has (R36, R230); the call's output
is discarded and the call ends with Err. Nothing is rolled back. -/
def State.raise (c : Cause) (s : State) : State :=
  (if s.fsm = .failed then s else { s with err := some c, fsm := .failed }).endCall (.badData c)

/-! ### The window (42_window.md) -/

/-- `Emit(b)` (10_state.md R33). -/
def State.emit (b : Byte) (s : State) : State := { s with out := s.out ++ [b] }

/-- The window side of a produced byte: written at `wpos`, which moves on modulo 65536, and counted (R140, R146). -/
def State.produce (b : Byte) (s : State) : State :=
  { s with win := s.win.write s.wpos b, wpos := s.wpos + 1, total := s.total + 1 }

/-- APPEND(b) (R140). -/
def State.append (b : Byte) (s : State) : State := (s.produce b).emit b

/-- COPY_MATCH's loop (R141): `l` bytes, one by one in order, each read `d` before the write position (the address is
taken modulo 65536) before it is written. `none`: a byte that nothing has written would be read (log entry 1). -/
def copyBytes (d : Nat) : (l : Nat) → State → Option State
  | 0, s => some s
  | l + 1, s => (s.win.read (s.wpos - BitVec.ofNat 16 d)).bind fun b => copyBytes d l (s.append b)

/-- COPY_MATCH(d, l) with what follows a copy that was made (R141, R142): the distance is checked once, before the first
byte. -/
def copyMatchThen (d l : Nat) (andThen : State → State) (s : State) : Result :=
  if s.total < d then .next (s.raise .distTooFar)
  else
    match copyBytes d l s with
    | none => .fault .windowByteNeverWritten
    | some t => .next (andThen t)

/-! ### Calls -/

/-- A DECOMPRESS begins (44_fsm_host.md R195): no byte is emitted yet. -/
def State.beginCall (s : State) : State := { s with phase := .between, out := [] }

/-- TRAILING(out, bytes) and the return of the call (R201, R203, R196): no trailing byte, or a policy that ignores them,
ends the call with Ok; otherwise E_TRAILING_DATA is raised. -/
def State.finish (bytes : List Byte) (s : State) : State :=
  if bytes = [] then s.endCall (.ok s.out)
  else
    match s.cfg.trailing with
    | .error => s.raise .trailingData
    | .ignore => s.endCall (.ok s.out)

/-- END_OF_STREAM (R201) and the return of the call: the padding bits of the last byte are dropped without counting in
`bitpos`, and every whole byte after it is trailing data. -/
def State.endOfStream (s : State) : State :=
  let rest := if s.rd.bitoff = 0 then s.rd.inq else s.rd.inq.tail
  State.finish rest { s with rd := { s.rd with inq := [], bitoff := 0 } }

/-- The end of a block (43_block_decoder.md R154, R169): DONE after the final block, else the next header. -/
def State.blockEnd (s : State) : State := { s with fsm := if s.bfinal then .done else .hdr }

end Sys2Proof.Machine
end

