-- ==== Sys2Proof/Machine/Body.lean ====
section
/-! DEFINITION. The elements of a Huffman block's body (43_block_decoder.md §6): LIT, EOB, the length symbols and the
invalid symbols. -/

namespace Sys2Proof.Machine

/-- LIT (R168): the literal byte is appended; the unit commits. -/
def execLit (b : Byte) (s : State) : Result := .next (s.append b).commit

/-- EOB (R169): the block ends; the unit commits. -/
def execEob (s : State) : Result := .next s.blockEnd.commit

/-- A length symbol with its extra field (R170, R171): the length is held and the distance is next in the same unit. -/
def lengthElem (sym extra : Nat) (s : State) : Result :=
  .next { s with mlen := matchLength sym extra, phase := .dist }

/-- LL symbols 286 and 287 (R173): FormatError(E_INVALID_LITLEN_SYM). -/
def invalidLL (s : State) : Result := .next (s.raise .invalidLitlenSym)

/-- LEN_257 (R170): length 3. -/
def execLen257 (s : State) : Result := lengthElem 257 0 s

/-- LEN_258 (R170): length 4. -/
def execLen258 (s : State) : Result := lengthElem 258 0 s

/-- LEN_259 (R170): length 5. -/
def execLen259 (s : State) : Result := lengthElem 259 0 s

/-- LEN_260 (R170): length 6. -/
def execLen260 (s : State) : Result := lengthElem 260 0 s

/-- LEN_261 (R170): length 7. -/
def execLen261 (s : State) : Result := lengthElem 261 0 s

/-- LEN_262 (R170): length 8. -/
def execLen262 (s : State) : Result := lengthElem 262 0 s

/-- LEN_263 (R170): length 9. -/
def execLen263 (s : State) : Result := lengthElem 263 0 s

/-- LEN_264 (R170): length 10. -/
def execLen264 (s : State) : Result := lengthElem 264 0 s

/-- LEN_265 (R170): length 11..12. -/
def execLen265 (extra : BitVec 1) (s : State) : Result := lengthElem 265 extra.toNat s

/-- LEN_266 (R170): length 13..14. -/
def execLen266 (extra : BitVec 1) (s : State) : Result := lengthElem 266 extra.toNat s

/-- LEN_267 (R170): length 15..16. -/
def execLen267 (extra : BitVec 1) (s : State) : Result := lengthElem 267 extra.toNat s

/-- LEN_268 (R170): length 17..18. -/
def execLen268 (extra : BitVec 1) (s : State) : Result := lengthElem 268 extra.toNat s

/-- LEN_269 (R170): length 19..22. -/
def execLen269 (extra : BitVec 2) (s : State) : Result := lengthElem 269 extra.toNat s

/-- LEN_270 (R170): length 23..26. -/
def execLen270 (extra : BitVec 2) (s : State) : Result := lengthElem 270 extra.toNat s

/-- LEN_271 (R170): length 27..30. -/
def execLen271 (extra : BitVec 2) (s : State) : Result := lengthElem 271 extra.toNat s

/-- LEN_272 (R170): length 31..34. -/
def execLen272 (extra : BitVec 2) (s : State) : Result := lengthElem 272 extra.toNat s

/-- LEN_273 (R170): length 35..42. -/
def execLen273 (extra : BitVec 3) (s : State) : Result := lengthElem 273 extra.toNat s

/-- LEN_274 (R170): length 43..50. -/
def execLen274 (extra : BitVec 3) (s : State) : Result := lengthElem 274 extra.toNat s

/-- LEN_275 (R170): length 51..58. -/
def execLen275 (extra : BitVec 3) (s : State) : Result := lengthElem 275 extra.toNat s

/-- LEN_276 (R170): length 59..66. -/
def execLen276 (extra : BitVec 3) (s : State) : Result := lengthElem 276 extra.toNat s

/-- LEN_277 (R170): length 67..82. -/
def execLen277 (extra : BitVec 4) (s : State) : Result := lengthElem 277 extra.toNat s

/-- LEN_278 (R170): length 83..98. -/
def execLen278 (extra : BitVec 4) (s : State) : Result := lengthElem 278 extra.toNat s

/-- LEN_279 (R170): length 99..114. -/
def execLen279 (extra : BitVec 4) (s : State) : Result := lengthElem 279 extra.toNat s

/-- LEN_280 (R170): length 115..130. -/
def execLen280 (extra : BitVec 4) (s : State) : Result := lengthElem 280 extra.toNat s

/-- LEN_281 (R170): length 131..162. -/
def execLen281 (extra : BitVec 5) (s : State) : Result := lengthElem 281 extra.toNat s

/-- LEN_282 (R170): length 163..194. -/
def execLen282 (extra : BitVec 5) (s : State) : Result := lengthElem 282 extra.toNat s

/-- LEN_283 (R170): length 195..226. -/
def execLen283 (extra : BitVec 5) (s : State) : Result := lengthElem 283 extra.toNat s

/-- LEN_284 (R170): length 227..258. -/
def execLen284 (extra : BitVec 5) (s : State) : Result := lengthElem 284 extra.toNat s

/-- LEN_285 (R170): length 3..65538. -/
def execLen285 (extra : BitVec 16) (s : State) : Result := lengthElem 285 extra.toNat s

/-- INVALID_286 (R173). -/
def execInvalid286 (s : State) : Result := invalidLL s

/-- INVALID_287 (R173). -/
def execInvalid287 (s : State) : Result := invalidLL s

end Sys2Proof.Machine
end

