-- ==== Sys2Proof/Machine/Distance.lean ====
section
/-! DEFINITION. The distance symbols (43_block_decoder.md R170, R172): the second half of MATCH. -/

namespace Sys2Proof.Machine

/-- A distance symbol with its extra field (R170, R172): the copy of the length held, then the unit commits; a distance
greater than `total` raises E_DIST_TOO_FAR before any byte (42_window.md R142). -/
def distanceElem (sym extra : Nat) (s : State) : Result :=
  copyMatchThen (matchDistance sym extra) s.mlen State.commit s

/-- DIST_0 (R170): distance 1. -/
def execDist0 (s : State) : Result := distanceElem 0 0 s

/-- DIST_1 (R170): distance 2. -/
def execDist1 (s : State) : Result := distanceElem 1 0 s

/-- DIST_2 (R170): distance 3. -/
def execDist2 (s : State) : Result := distanceElem 2 0 s

/-- DIST_3 (R170): distance 4. -/
def execDist3 (s : State) : Result := distanceElem 3 0 s

/-- DIST_4 (R170): distance 5..6. -/
def execDist4 (extra : BitVec 1) (s : State) : Result := distanceElem 4 extra.toNat s

/-- DIST_5 (R170): distance 7..8. -/
def execDist5 (extra : BitVec 1) (s : State) : Result := distanceElem 5 extra.toNat s

/-- DIST_6 (R170): distance 9..12. -/
def execDist6 (extra : BitVec 2) (s : State) : Result := distanceElem 6 extra.toNat s

/-- DIST_7 (R170): distance 13..16. -/
def execDist7 (extra : BitVec 2) (s : State) : Result := distanceElem 7 extra.toNat s

/-- DIST_8 (R170): distance 17..24. -/
def execDist8 (extra : BitVec 3) (s : State) : Result := distanceElem 8 extra.toNat s

/-- DIST_9 (R170): distance 25..32. -/
def execDist9 (extra : BitVec 3) (s : State) : Result := distanceElem 9 extra.toNat s

/-- DIST_10 (R170): distance 33..48. -/
def execDist10 (extra : BitVec 4) (s : State) : Result := distanceElem 10 extra.toNat s

/-- DIST_11 (R170): distance 49..64. -/
def execDist11 (extra : BitVec 4) (s : State) : Result := distanceElem 11 extra.toNat s

/-- DIST_12 (R170): distance 65..96. -/
def execDist12 (extra : BitVec 5) (s : State) : Result := distanceElem 12 extra.toNat s

/-- DIST_13 (R170): distance 97..128. -/
def execDist13 (extra : BitVec 5) (s : State) : Result := distanceElem 13 extra.toNat s

/-- DIST_14 (R170): distance 129..192. -/
def execDist14 (extra : BitVec 6) (s : State) : Result := distanceElem 14 extra.toNat s

/-- DIST_15 (R170): distance 193..256. -/
def execDist15 (extra : BitVec 6) (s : State) : Result := distanceElem 15 extra.toNat s

/-- DIST_16 (R170): distance 257..384. -/
def execDist16 (extra : BitVec 7) (s : State) : Result := distanceElem 16 extra.toNat s

/-- DIST_17 (R170): distance 385..512. -/
def execDist17 (extra : BitVec 7) (s : State) : Result := distanceElem 17 extra.toNat s

/-- DIST_18 (R170): distance 513..768. -/
def execDist18 (extra : BitVec 8) (s : State) : Result := distanceElem 18 extra.toNat s

/-- DIST_19 (R170): distance 769..1024. -/
def execDist19 (extra : BitVec 8) (s : State) : Result := distanceElem 19 extra.toNat s

/-- DIST_20 (R170): distance 1025..1536. -/
def execDist20 (extra : BitVec 9) (s : State) : Result := distanceElem 20 extra.toNat s

/-- DIST_21 (R170): distance 1537..2048. -/
def execDist21 (extra : BitVec 9) (s : State) : Result := distanceElem 21 extra.toNat s

/-- DIST_22 (R170): distance 2049..3072. -/
def execDist22 (extra : BitVec 10) (s : State) : Result := distanceElem 22 extra.toNat s

/-- DIST_23 (R170): distance 3073..4096. -/
def execDist23 (extra : BitVec 10) (s : State) : Result := distanceElem 23 extra.toNat s

/-- DIST_24 (R170): distance 4097..6144. -/
def execDist24 (extra : BitVec 11) (s : State) : Result := distanceElem 24 extra.toNat s

/-- DIST_25 (R170): distance 6145..8192. -/
def execDist25 (extra : BitVec 11) (s : State) : Result := distanceElem 25 extra.toNat s

/-- DIST_26 (R170): distance 8193..12288. -/
def execDist26 (extra : BitVec 12) (s : State) : Result := distanceElem 26 extra.toNat s

/-- DIST_27 (R170): distance 12289..16384. -/
def execDist27 (extra : BitVec 12) (s : State) : Result := distanceElem 27 extra.toNat s

/-- DIST_28 (R170): distance 16385..24576. -/
def execDist28 (extra : BitVec 13) (s : State) : Result := distanceElem 28 extra.toNat s

/-- DIST_29 (R170): distance 24577..32768. -/
def execDist29 (extra : BitVec 13) (s : State) : Result := distanceElem 29 extra.toNat s

/-- DIST_30 (R170): distance 32769..49152. -/
def execDist30 (extra : BitVec 14) (s : State) : Result := distanceElem 30 extra.toNat s

/-- DIST_31 (R170): distance 49153..65536. -/
def execDist31 (extra : BitVec 14) (s : State) : Result := distanceElem 31 extra.toNat s

end Sys2Proof.Machine
end

