-- ==== Sys2Proof/Machine/Dynamic.lean ====
section
/-! DEFINITION. The dynamic header's elements (43_block_decoder.md §4). -/

namespace Sys2Proof.Machine

/-- DYN_COUNTS (R156, R157): the three counts; more than 286 LL lengths raise E_HLIT_RANGE, and otherwise the CL lengths
are next, all 19 starting at 0 (R158). -/
def execDynCounts (hlit hdist : BitVec 5) (hclen : BitVec 4) (s : State) : Result :=
  if Config.maxNlen < nlenOf hlit then .next (s.raise .hlitRange)
  else
    .next { s with
      hdr := { DynHeader.blank with nlen := nlenOf hlit, ndist := ndistOf hdist, ncode := ncodeOf hclen }
      phase := .clLens }

/-- The header with the next CL length in its place (R158, R82). -/
def DynHeader.putClLen (l : BitVec 3) (h : DynHeader) : DynHeader :=
  { h with clLen := h.clLen.set (clOrder.getD h.nread 0) (l.setWidth 4), nread := h.nread + 1 }

/-- CL_LEN (R158): the length is stored; after the last of `ncode` lengths the CL code is built (E_CL_TREE if it is not
complete) and CL symbols are next. -/
def execClLen (l : BitVec 3) (s : State) : Result :=
  let h := s.hdr.putClLen l
  if h.nread < h.ncode then .next { s with hdr := h, phase := .clLens }
  else if buildAccepts s.cfg.strict .cl h.clLen then .next { s with hdr := h, phase := .clSyms }
  else .next (State.raise .clTree { s with hdr := h })

/-- The literal/length table of a complete sequence (R165). -/
def DynHeader.newLL (h : DynHeader) : List CodeLen := h.lens.take h.nlen ++ List.replicate (288 - h.nlen) 0

/-- The distance table of a complete sequence (R165). -/
def DynHeader.newD (h : DynHeader) : List CodeLen :=
  (h.lens.drop h.nlen).take h.ndist ++ List.replicate (32 - h.ndist) 0

/-- DYN_FINISH (R165): the missing-EOB check, the two BUILDs in that order (60_exceptions.md R229), then the body; the
unit commits. -/
def State.dynFinish (s : State) : State :=
  if s.hdr.lens.getD 256 0 = 0 then s.raise .missingEob
  else if !buildAccepts s.cfg.strict .ll s.hdr.newLL then s.raise .litlenTree
  else if !buildAccepts s.cfg.strict .d s.hdr.newD then s.raise .distTree
  else State.commit { s with llLen := s.hdr.newLL, distLen := s.hdr.newD, kind := .dynamic, fsm := .body }

/-- Lengths appended to the sequence; the loop of CL_SEQUENCE (R159) goes on until it holds `nlen + ndist` of them. -/
def State.pushLens (vs : List CodeLen) (s : State) : State :=
  let t := { s with hdr := { s.hdr with lens := s.hdr.lens ++ vs } }
  if t.hdr.lens.length < t.hdr.nlen + t.hdr.ndist then { t with phase := .clSyms } else t.dynFinish

/-- A run of `r` lengths `v`: RUN_CHECK (R164), then the lengths. -/
def State.pushRun (r : Nat) (v : CodeLen) (s : State) : State :=
  if s.hdr.nlen + s.hdr.ndist < s.hdr.lens.length + r then s.raise .clOverrun
  else s.pushLens (List.replicate r v)

/-- CL_SET (R160). -/
def execClSet (v : CodeLen) (s : State) : Result := .next (s.pushLens [v])

/-- CL_REP16 (R161): the previous length 3 + extra times; E_CL_REPEAT_NO_PREV when there is none. -/
def execClRep16 (extra : BitVec 2) (s : State) : Result :=
  match s.hdr.lens.getLast? with
  | none => .next (s.raise .clRepeatNoPrev)
  | some v => .next (s.pushRun (shortRun extra.toNat) v)

/-- CL_ZERO17 (R162). -/
def execClZero17 (extra : BitVec 3) (s : State) : Result := .next (s.pushRun (shortRun extra.toNat) 0)

/-- CL_ZERO18 (R163). -/
def execClZero18 (extra : BitVec 7) (s : State) : Result := .next (s.pushRun (longRun extra.toNat) 0)

end Sys2Proof.Machine
end

