-- ==== Sys2Proof/Machine/Header.lean ====
section
/-! DEFINITION. The block header elements (43_block_decoder.md §1, §3, §5): each writes `bfinal` (R150), then continues
HDR_UNIT by its BTYPE. -/

namespace Sys2Proof.Machine

/-- BLK_STORED (R150, R151): the rest of the partly consumed byte is discarded and LEN and NLEN are next. -/
def execBlkStored (bfinal : Bool) (s : State) : Result :=
  .next { s with bfinal := bfinal, rd := s.rd.align, phase := .storedHdr }

/-- BLK_FIXED (R150, R155): the fixed lengths are loaded and the body begins; the unit commits. -/
def execBlkFixed (bfinal : Bool) (s : State) : Result :=
  .next (State.commit { s with bfinal := bfinal, llLen := fixedLL, distLen := fixedD, kind := .fixed, fsm := .body })

/-- BLK_DYNAMIC (R150, R156): the counts are next. -/
def execBlkDynamic (bfinal : Bool) (s : State) : Result :=
  .next { s with bfinal := bfinal, phase := .dynCounts }

/-- BLK_RESERVED (R150, R166): FormatError(E_RESERVED_BTYPE). -/
def execBlkReserved (bfinal : Bool) (s : State) : Result :=
  .next (State.raise .reservedBtype { s with bfinal := bfinal })

end Sys2Proof.Machine
end

