-- ==== Sys2Proof/Machine/HostCalls.lean ====
section
/-! DEFINITION. The host's transactions (44_fsm_host.md §2 and §4). -/

namespace Sys2Proof.Machine

/-- RESET (R207, 10_state.md R42): a new session under the same parameters; the host's transactions that wait go to it.
While a DECOMPRESS runs the spec gives RESET no result (70_reset_and_hazards.md R255); that it has the same effect there is
a DESIGN CHOICE, and the step function never issues one then (log entry 19). -/
def execReset (s : State) : Result := .next { State.reset with cfg := s.cfg, calls := s.calls }

/-- DECOMPRESS(chunk) (R195 to R197): on a failed session E_SESSION_FAILED is raised and the chunk is not looked at; on
an ended one the chunk is trailing data; otherwise the chunk is fed and the call runs its units, one element a step, until
it suspends, raises or ends (log entry 4). -/
def execDecompress (chunk : List Byte) (s : State) : Result :=
  if s.phase ≠ .idle then .refused .overlappingCall
  else
    match s.fsm with
    | .failed => .next (s.beginCall.raise .sessionFailed)
    | .done => .next (s.beginCall.finish chunk)
    | .hdr | .stored | .body => .next { s.beginCall with rd := s.rd.feed chunk }

/-- EOF (R206): `fsm == DONE`, in any state. While a DECOMPRESS runs the spec gives overlapping transactions no result
(70_reset_and_hazards.md R255); that EOF reads the flag there too is a DESIGN CHOICE, and the step function never issues
one then (log entry 19). -/
def execEof (s : State) : Result := .next { s with results := s.results ++ [.eof s.eof] }

/-- A waiting transaction as the instruction it is. -/
def HostCall.instr : HostCall → Instr
  | .reset => .reset
  | .decompress chunk => .decompress chunk
  | .eof => .eof

end Sys2Proof.Machine
end

