-- ==== Sys2Proof/Machine/Internal.lean ====
section
/-! DEFINITION. The core's internal operations run as instructions of their own (40_bit_reader.md, 41_huffman.md,
42_window.md). The elements call the same shared operations directly; a value an operation returns goes to `opRes`
(log entry 8). -/

namespace Sys2Proof.Machine

/-- FEED(chunk) (R115). -/
def execFeed (chunk : List Byte) (s : State) : Result := .next { s with rd := s.rd.feed chunk }

/-- READ_BITS(n) (R116): the value, or `suspend`, which consumes nothing and abandons the unit under way (R121). -/
def execReadBits (n : Nat) (s : State) : Result :=
  match s.rd.readBits n with
  | none => .next { s.suspend with opRes := .suspended }
  | some (v, r) => .next { s with rd := r, opRes := .bits v }

/-- ALIGN_TO_BYTE (R117). -/
def execAlignToByte (s : State) : Result := .next { s with rd := s.rd.align }

/-- AVAIL (R118): reads state only. -/
def execAvail (s : State) : Result := .next { s with opRes := .count s.rd.avail }

/-- BUILD(lens, kind) (R126 to R131): the code, or FormatError(cause(kind)). -/
def execBuild (kind : CodeKind) (lens : List CodeLen) (s : State) : Result :=
  match buildCode s.cfg.strict kind lens with
  | none => .next { s.raise kind.cause with opRes := .raised kind.cause }
  | some T => .next { s with opRes := .code T }

/-- DECODE(T) (R132, R133): the symbol, `suspend`, or FormatError(E_INVALID_CODE). -/
def execDecode (T : Code) (s : State) : Result :=
  match decodeSym T s.rd with
  | .suspend => .next { s.suspend with opRes := .suspended }
  | .invalid r => .next { State.raise .invalidCode { s with rd := r } with opRes := .raised .invalidCode }
  | .sym v r => .next { s with rd := r, opRes := .symbol v }

/-- APPEND(b) (R140). -/
def execAppend (b : Byte) (s : State) : Result := .next (s.append b)

/-- COPY_MATCH(d, l) (R141, R142). -/
def execCopyMatch (d l : Nat) (s : State) : Result := copyMatchThen d l id s

end Sys2Proof.Machine
end

