-- ==== Sys2Proof/Machine/Stored.lean ====
section
/-! DEFINITION. The stored block's elements (43_block_decoder.md §2). -/

namespace Sys2Proof.Machine

/-- STORED_HDR (R152): the complement check, then the stored body; the unit commits. -/
def execStoredHdr (len nlen : BitVec 16) (s : State) : Result :=
  if storedLenMatches len nlen then .next (State.commit { s with rem := len, fsm := .stored })
  else .next (s.raise .storedNlen)

/-- STORED_BYTE (R153): one raw byte is appended; the unit commits. -/
def execStoredByte (b : Byte) (s : State) : Result :=
  .next (State.commit { s.append b with rem := s.rem - 1 })

/-- STORED_END (R154): the block ends; the unit commits. -/
def execStoredEnd (s : State) : Result := .next s.blockEnd.commit

end Sys2Proof.Machine
end

