-- ==== Sys2Proof/Machine/Fetch.lean ====
section
/-! DEFINITION. Fetching: which instruction runs next. With no call running it is the host's oldest transaction; in a
call it is the element that stands next in the stream (44_fsm_host.md R194, R195). -/

namespace Sys2Proof.Machine

/-- What comes next: an instruction and the state it runs in, or a step that runs none (a call that suspends, raises in
its decoding or ends; a core that waits for the host). -/
inductive Fetched where
  | run (i : Instr) (s : State)
  | settled (s : State)
  deriving DecidableEq, Repr

/-- The format of the next element (30_encoding.md R100). `none` where no element is next. Inside a unit the phase alone
decides, whatever `fsm` is: a DESIGN CHOICE for states no run reaches (log entry 16). -/
def State.expect (s : State) : Option Expect :=
  match s.phase with
  | .idle => none
  | .between =>
    match s.fsm with
    | .hdr => some .blockHeader
    | .stored => some (if s.rem = 0 then .storedEnd else .storedByte)
    | .body => some (.llSym (codeOf s.llLen))
    | .done => none
    | .failed => none
  | .storedHdr => some .storedHdr
  | .dynCounts => some .dynCounts
  | .clLens => some .clLen
  | .clSyms => some (.clSym (codeOf s.hdr.clLen))
  | .dist => some (.dSym (codeOf s.distLen))

/-- Before a unit runs, the rollback point is recorded (R192). -/
def State.enterUnit (s : State) : State :=
  if s.phase = .between then { s with snap := some s.capture } else s

/-- The next element decoded: it runs with its bits consumed; a read that lacks bits suspends the unit (R192); bits that
are no codeword raise E_INVALID_CODE, consumed up to the detecting bit (60_exceptions.md R227). -/
def fetchElem (e : Expect) (s : State) : Fetched :=
  match decode e s.rd with
  | .found i r => .run i { s with rd := r }
  | .suspend => .settled s.suspend
  | .invalid r => .settled (State.raise .invalidCode { s with rd := r })

/-- The next instruction. In DONE the call ends (R195, R201). A call that stands in FAILED cannot be reached; a DESIGN
CHOICE says what it does: between two units it ends with E_SESSION_FAILED, and inside a unit the unit's next element runs
(log entry 16). -/
def fetch (s : State) : Fetched :=
  match s.phase with
  | .idle =>
    match s.calls with
    | [] => .settled s
    | c :: cs => .run c.instr { s with calls := cs }
  | .between | .storedHdr | .dynCounts | .clLens | .clSyms | .dist =>
    match s.expect with
    | some e => fetchElem e s.enterUnit
    | none => if s.fsm = .done then .settled s.endOfStream else .settled (s.raise .sessionFailed)

/-- The state inside a unit that began here: at the given phase, with the unit's rollback point recorded. -/
def State.inUnit (p : Phase) (s : State) : State := { s with snap := some s.capture, phase := p }

/-- The state with the stream's next bits, and the control registers, such that the next element is one of format `e`
with those bits next. -/
def State.withElem (s : State) (e : Expect) (bs : List Bool) : State :=
  let t := { s with rd := { Reader.ofBits bs with bitpos := s.rd.bitpos } }
  let header := { t with fsm := .hdr }
  let body := { t with fsm := .body, llLen := fixedLL, distLen := fixedD }
  match e with
  | .blockHeader => { header with phase := .between }
  | .storedHdr => header.inUnit .storedHdr
  | .storedByte => { t with fsm := .stored, rem := 1, phase := .between }
  | .storedEnd => { t with fsm := .stored, rem := 0, phase := .between }
  | .dynCounts => header.inUnit .dynCounts
  | .clLen => { header.inUnit .clLens with hdr := { DynHeader.blank with nlen := 257, ndist := 1, ncode := 19 } }
  | .clSym _ =>
    { header.inUnit .clSyms with
      hdr := { nlen := 257, ndist := 1, ncode := 19, clLen := clStdLens, nread := 19, lens := [] } }
  | .llSym _ => { body with phase := .between }
  | .dSym _ => { body.inUnit .dist with mlen := 3 }

/-- The state whose next step fetches and runs the instruction a word of spec/opcode_table.json stands for (log entry
11). A word that stands for none leaves the state as it is. -/
def State.placeWord (s : State) (nbits w : Nat) : State :=
  match tableWord nbits w with
  | some (e, bs) => s.withElem e bs
  | none => s

end Sys2Proof.Machine
end

