-- ==== Sys2Proof/Safety.lean ====
section
/-! DEFINITION. What counts as a legal state of a session, what a call is as a run of steps, and the effects claims are
stated in: the invariants of 10_state.md R41, the history of the output, a raise, a copy. -/

namespace Sys2Proof.Machine

/-! ### Legal states -/

/-- A legal bit reader: `bitoff = 0` when `inq` is empty (10_state.md R22, R41 item 1), and `bitpos` is 8 times a number
of bytes, plus `bitoff` (R23). -/
def ReaderOk (r : Reader) : Prop := (r.inq = [] → r.bitoff = 0) ∧ r.bitpos % 8 = r.bitoff.toNat

/-- The window's side of a legal state: its cursor is `total mod 65536` (R41 item 2), its memory is canonical, and every
byte produced and not yet overwritten is there (20_memory.md R69). -/
def WindowOk (s : State) : Prop :=
  s.wpos = BitVec.ofNat 16 s.total ∧ s.win.wf = true ∧
    ∀ a, a < min s.total Config.windowSize → (s.win.get a).isSome = true

/-- Whether the phase is inside a unit. -/
def Phase.inUnit : Phase → Bool
  | .idle => false
  | .between => false
  | .storedHdr => true
  | .dynCounts => true
  | .clLens => true
  | .clSyms => true
  | .dist => true

/-- The control state in which a phase inside a unit stands (44_fsm_host.md R191): a BODY_UNIT for `dist`, a HDR_UNIT
for the others. -/
def Phase.unitFsm : Phase → Fsm
  | .dist => .body
  | .idle => .hdr
  | .between => .hdr
  | .storedHdr => .hdr
  | .dynCounts => .hdr
  | .clLens => .hdr
  | .clSyms => .hdr

/-- The counts of a dynamic header that passed its checks (30_encoding.md R81, 43_block_decoder.md R157). -/
def DynHeader.CountsOk (h : DynHeader) : Prop :=
  257 ≤ h.nlen ∧ h.nlen ≤ 286 ∧ 1 ≤ h.ndist ∧ h.ndist ≤ 32 ∧ 4 ≤ h.ncode ∧ h.ncode ≤ 19

/-- The legal states of a session: 10_state.md R41 items 1 to 5, R28 and R29's sizes, R69, what the model's own registers
hold in each phase, and that the codes in force are ones BUILD accepted (R30). -/
structure Inv (s : State) : Prop where
  /-- R41 item 1, R23: while the session decodes, the reader is legal. -/
  reader : s.fsm = .hdr ∨ s.fsm = .stored ∨ s.fsm = .body → ReaderOk s.rd
  /-- R41 item 1, in every control state. -/
  emptyAligned : s.rd.inq = [] → s.rd.bitoff = 0
  /-- R41 item 2, R69. -/
  window : WindowOk s
  /-- R41 item 3. -/
  storedAligned : s.fsm = .stored → s.rd.bitoff = 0
  /-- R41 item 4, between calls. -/
  doneEmpty : s.phase = .idle → s.fsm = .done → s.rd.inq = []
  /-- R41 item 5. -/
  errIff : s.err = none ↔ s.fsm ≠ .failed
  /-- R28. -/
  llSize : s.llLen.length = 288
  /-- R29. -/
  distSize : s.distLen.length = 32
  /-- R30: in BODY both tables are ones BUILD accepts. -/
  bodyCodes : s.fsm = .body →
    buildAccepts s.cfg.strict .ll s.llLen = true ∧ buildAccepts s.cfg.strict .d s.distLen = true
  /-- R38, R33: between calls nothing transient is left. -/
  idleClean : s.phase = .idle → s.out = []
  /-- R38: outside a unit nothing transient is left. -/
  unitClean : s.phase.inUnit = false → s.snap = none ∧ s.hdr = DynHeader.blank ∧ s.mlen = 0
  /-- A call runs on a session that has not failed (R195, R225). -/
  callLive : s.phase ≠ .idle → s.fsm ≠ .failed
  /-- R191: a unit runs in its own control state. -/
  unitState : s.phase.inUnit = true → s.fsm = s.phase.unitFsm
  /-- R39, R192: inside a unit a legal rollback point is held, and only the reader and `bfinal` differ from it. -/
  unitSnap : s.phase.inUnit = true →
    ∃ rd bfinal, ReaderOk rd ∧ s.snap = some { s.capture with rd := rd, bfinal := bfinal }
  /-- R151: LEN and NLEN are read at a byte boundary. -/
  storedHdrAligned : s.phase = .storedHdr → s.rd.bitoff = 0
  /-- R158: a CL length is next only while some are missing. -/
  clLensOk : s.phase = .clLens →
    s.hdr.CountsOk ∧ s.hdr.nread < s.hdr.ncode ∧ s.hdr.clLen.length = 19 ∧ s.hdr.lens = []
  /-- R159: a CL symbol is next only while lengths are missing, under a CL code BUILD accepted. -/
  clSymsOk : s.phase = .clSyms →
    s.hdr.CountsOk ∧ s.hdr.lens.length < s.hdr.nlen + s.hdr.ndist ∧ s.hdr.clLen.length = 19 ∧
      buildAccepts s.cfg.strict .cl s.hdr.clLen = true
  /-- R171: the length held is one a length symbol gives. -/
  distOk : s.phase = .dist → 3 ≤ s.mlen ∧ s.mlen ≤ 65538

/-! ### The output's history -/

/-- The byte produced `k` bytes before the next one, as the window has it (42_window.md R141). -/
def State.recent (s : State) (k : Nat) : Option Byte := s.win.read (s.wpos - BitVec.ofNat 16 k)

/-- Every byte the session has emitted, in order: those returned by calls, then those of the current call. -/
def State.emitted (s : State) : List Byte := outputStream s.results ++ s.out

/-- Until a session fails, `total` counts the bytes emitted (42_window.md R146) and the window holds the last 65536 of
them in order (R140, R141; 44_fsm_host.md R199). -/
def HistoryOk (s : State) : Prop :=
  s.fsm ≠ .failed →
    s.emitted.length = s.total ∧
      ∀ k, 1 ≤ k → k ≤ min s.total Config.windowSize → s.recent k = s.emitted[s.total - k]?

/-! ### Effects -/

/-- What a raise does (60_exceptions.md R225): the session is failed, with the first cause; the output of the call is
discarded; a call that runs ends with Err; nothing is rolled back and every other element stays, but for the transient
registers of a unit. That the other elements stay is the spec's own decision (92_eei_decisions.md D25; log entry 13). -/
def RaiseEffect (c : Cause) (s t : State) : Prop :=
  t.fsm = .failed ∧
    t.err = (if s.fsm = .failed then s.err else some c) ∧
    t.out = [] ∧
    t.phase = .idle ∧
    t.results = (if s.phase = .idle then s.results else s.results ++ [.badData c]) ∧
    t = { s with
      fsm := t.fsm, err := t.err, out := t.out, phase := t.phase, results := t.results, snap := t.snap, hdr := t.hdr,
      mlen := t.mlen }

/-- What a copy of `l` bytes at distance `d` does to the window and to the output (42_window.md R141, R143): byte `i` of
the copy is the byte produced `d` positions before it, from before the copy or from the copy itself; the bytes go to the
output and to the `l` addresses from `wpos` on, in order; every other address reads as before. -/
def CopyEffect (d l : Nat) (s t : State) : Prop :=
  ∃ bytes : List Byte,
    bytes.length = l ∧
      (∀ i, i < l → i < d → bytes[i]? = s.recent (d - i)) ∧
      (∀ i, i < l → d ≤ i → bytes[i]? = bytes[i - d]?) ∧
      t.out = s.out ++ bytes ∧
      t.wpos = s.wpos + BitVec.ofNat 16 l ∧
      t.total = s.total + l ∧
      (∀ i, i < l → l ≤ i + Config.windowSize → t.win.read (s.wpos + BitVec.ofNat 16 i) = bytes[i]?) ∧
      ∀ a, (∀ i, i < l → a ≠ s.wpos + BitVec.ofNat 16 i) → t.win.read a = s.win.read a

/-- What one produced byte does to the window and to the output (42_window.md R140). -/
def AppendEffect (b : Byte) (s t : State) : Prop :=
  t.win.read s.wpos = some b ∧
    (∀ a, a ≠ s.wpos → t.win.read a = s.win.read a) ∧
    t.out = s.out ++ [b] ∧ t.wpos = s.wpos + 1 ∧ t.total = s.total + 1

/-- A length symbol holds the length `l` and makes the distance next; nothing else changes (43_block_decoder.md R170,
R171). -/
def LengthHeld (i : Instr) (l : Nat) : Prop := ∀ s : State, exec i s = .next { s with mlen := l, phase := .dist }

/-- A distance symbol with a distance `d` the session has produced copies the length held at that distance and completes
its unit; no other element changes (R170, 42_window.md R141). -/
def DistCopies (i : Instr) (d : Nat) : Prop :=
  ∀ s : State, WindowOk s → d ≤ s.total →
    ∃ t, exec i s = .next t ∧ CopyEffect d s.mlen s t ∧
      t = { s with
        win := t.win, wpos := t.wpos, out := t.out, total := t.total, phase := .between, snap := none,
        hdr := DynHeader.blank, mlen := 0 }

/-- A distance symbol with a distance `d` greater than `total` raises DistanceTooFar (42_window.md R142). -/
def DistTooFar (i : Instr) (d : Nat) : Prop :=
  ∀ s : State, s.total < d → ∃ t, exec i s = .next t ∧ RaiseEffect .distTooFar s t

/-! ### Codes, independently of how BUILD computes them -/

/-- 2^15 times the sum of 2^-lens[s] over the symbols that have a codeword (41_huffman.md R127). -/
def kraftSum (lens : List CodeLen) : Nat := (lens.map fun l => if l = 0 then 0 else 2 ^ (15 - l.toNat)).sum

/-- The tables BUILD accepts, by that sum (R127, R128): complete ones, and, unless STRICT_INCOMPLETE, the incomplete LL or
D table whose only lengths are 0 and 1 with a 1 among them, and the D table of zeros. -/
def TableAccepted (strict : Bool) (kind : CodeKind) (lens : List CodeLen) : Prop :=
  kraftSum lens = 2 ^ 15 ∨
    (kraftSum lens < 2 ^ 15 ∧ strict = false ∧
      ((kind ≠ .cl ∧ (∀ l ∈ lens, l.toNat ≤ 1) ∧ (1 : CodeLen) ∈ lens) ∨ (kind = .d ∧ ∀ l ∈ lens, l = 0)))

/-- The value of the first codeword of length `l` (R129), in closed form: the codewords of every shorter length `j`, each
worth 2^(l-j) values. -/
def firstCode (lens : List CodeLen) (l : Nat) : Nat :=
  ((List.range l).map fun j => if j = 0 then 0 else lens.countP (fun x => x.toNat == j) * 2 ^ (l - j)).sum

/-- The code in force of a format is one BUILD can return; a format without one has nothing to check. -/
def CodeInForceOk : Expect → Prop
  | .clSym T => T.wf = true
  | .llSym T => T.wf = true
  | .dSym T => T.wf = true
  | .blockHeader => True
  | .storedHdr => True
  | .storedByte => True
  | .storedEnd => True
  | .dynCounts => True
  | .clLen => True

/-! ### Calls as runs of steps -/

/-- A state in which the host waits for nothing: no call runs and none is issued. -/
def State.quiet (s : State) : Prop := s.phase = .idle ∧ s.calls = []

/-- The transactions issued in `s` run to their end and leave `t`. -/
def Completes (s t : State) : Prop := ∃ n, Host.Core.run Sys2Proof.core n s = .next t ∧ t.quiet

/-- The state in which the host issues the given transactions. -/
def State.issue (calls : List HostCall) (s : State) : State := { s with calls := calls }

/-- The transitions of `fsm` (44_fsm_host.md R190) but RESET's. -/
def Fsm.mayBecome : Fsm → Fsm → Bool
  | .hdr, .hdr | .hdr, .stored | .hdr, .body | .hdr, .failed => true
  | .stored, .stored | .stored, .hdr | .stored, .done => true
  | .body, .body | .body, .hdr | .body, .done | .body, .failed => true
  | .done, .done | .done, .failed => true
  | .failed, .failed => true
  | _, _ => false

/-- The next step runs RESET. -/
def State.resetNext (s : State) : Prop := s.phase = .idle ∧ s.calls.head? = some .reset

end Sys2Proof.Machine
end

