-- ==== Sys2Proof/Certificates/Slice0/Obligations.lean ====
section
/-! DEFINITION. The statements for the provers. Each docstring names the rules of spec/ it formalises. A statement about
every state holds for every value of the named parameters (00_scope.md R9) and of DETAIL_TEXT. -/

open Sys2Proof Sys2Proof.Machine

/-- R42, R207: RESET's values, those the spec gives. That the parameters and the waiting transactions stay is the model's choice (log entries 3 and 6), and so is RESET's effect while a call runs (log entry 19). -/
def Obligations.ResetStartsSession : Prop :=
  ∀ s : State, ∃ t, exec .reset s = .next t ∧ t.cfg = s.cfg ∧ t.calls = s.calls ∧
    ∀ u : State, u = t ∨ u = State.reset →
      u.rd.inq = [] ∧ u.rd.bitoff = 0 ∧ u.rd.bitpos = 0 ∧ u.fsm = .hdr ∧ u.bfinal = false ∧ u.rem = 0 ∧ u.wpos = 0 ∧
        u.total = 0 ∧ u.out = [] ∧ u.err = none ∧ u.eof = false ∧ u.status = 0x00000000#32

/-- R41 at reset. -/
def Obligations.LegalStateAtReset : Prop :=
  Inv State.reset ∧ HistoryOk State.reset

/-- R41: the invariants hold between units; here every step, inside a unit too. -/
def Obligations.LegalStateKept : Prop :=
  ∀ s t : State, Inv s → step s = .next t → Inv t

/-- R146, R199: the output, the counter and the window agree. R56: what was returned or emitted stays as it is. -/
def Obligations.OutputHistoryKept : Prop :=
  ∀ s t : State, Inv s → HistoryOk s → step s = .next t →
    HistoryOk t ∧
      (¬s.resetNext →
        outputStream s.results <+: outputStream t.results ∧ (t.fsm ≠ .failed → s.emitted <+: t.emitted))

/-- R69: no rule ever reads a window byte that this session has not written (the fault is log entry 1). R7, R255: no transaction begins while another runs (the refusal is log entry 12). -/
def Obligations.LegalStepsNeverStop : Prop :=
  ∀ s : State, Inv s → ∃ t, step s = .next t

/-- R200: every DECOMPRESS ends, and a call commits at most 2 * Avail() + 1 units; here in steps of one element each. -/
def Obligations.CallsEnd : Prop :=
  ∀ s : State, Inv s → s.phase ≠ .idle →
    ∃ n t r, n ≤ 2 * s.rd.avail + 2 ∧ Host.Core.run Sys2Proof.core n s = .next t ∧ t.phase = .idle ∧
      t.results = s.results ++ [r] ∧ t.calls = s.calls

/-- R204: chunking invariance, for a split in two at any byte; a longer split follows piece by piece. -/
def Obligations.ChunkingInvariance : Prop :=
  ∀ (s s1 : State) (a b : List Byte),
    Inv s → s.quiet → (s.fsm = .hdr ∨ s.fsm = .stored ∨ s.fsm = .body) →
      Completes (s.issue [.decompress a]) s1 →
        (s1.fsm ≠ .failed → ∀ t1, Completes (s1.issue [.decompress b]) t1 →
          ∃ t2 x, Completes (s.issue [.decompress (a ++ b)]) t2 ∧ t2 = { t1 with results := t2.results } ∧
            s1.results = s.results ++ [.ok x] ∧
            ((∃ y, t1.results = s1.results ++ [.ok y] ∧ t2.results = s.results ++ [.ok (x ++ y)]) ∨
              ∃ c, t1.results = s1.results ++ [.badData c] ∧ t2.results = s.results ++ [.badData c])) ∧
        (s1.fsm = .failed → ∃ t2 c, Completes (s.issue [.decompress (a ++ b)]) t2 ∧
          s1.results = s.results ++ [.badData c] ∧ t2.results = s.results ++ [.badData c])

/-- R198: the call returns Ok([]) and changes no state, after a suspend and at reset; R196 for DONE. -/
def Obligations.EmptyCallChangesNothing : Prop :=
  (∀ (s s1 : State) (a : List Byte),
      Inv s → s.quiet → (s.fsm = .hdr ∨ s.fsm = .stored ∨ s.fsm = .body) →
        Completes (s.issue [.decompress a]) s1 → s1.fsm ≠ .failed →
          Completes (s1.issue [.decompress []]) { s1 with results := s1.results ++ [.ok []] }) ∧
    ∀ s u : State, exec .reset s = .next u → u.calls = [] →
      Completes (u.issue [.decompress []]) { u with results := u.results ++ [.ok []] }

/-- 30_encoding.md: decode and encode agree on all 78 elements of the stream. -/
def Obligations.DecodeOfEncode : Prop :=
  ∀ (e : Expect) (i : Instr) (bs rest : List Bool) (r : Reader),
    CodeInForceOk e → encode e i = some bs → r.bits = bs ++ rest →
      ∃ r', decode e r = .found i r' ∧ r'.bits = rest ∧ r'.bitpos = r.bitpos + bs.length

/-- 30_encoding.md: the other direction. -/
def Obligations.DecodedBitsSpellTheElement : Prop :=
  ∀ (e : Expect) (i : Instr) (r r' : Reader),
    CodeInForceOk e → decode e r = .found i r' →
      WellFormed i ∧ ∃ bs, encode e i = some bs ∧ r.bits = bs ++ r'.bits ∧ r'.bitpos = r.bitpos + bs.length

/-- R229: a truncated element raises nothing (conflict C7). -/
def Obligations.TruncatedElementSuspends : Prop :=
  ∀ (e : Expect) (i : Instr) (more : List Bool) (r : Reader),
    CodeInForceOk e → encode e i = some (r.bits ++ more) → more ≠ [] → decode e r = .suspend

/-- R204's proof sketch: a unit's outcome depends only on the state and the bits available. -/
def Obligations.DecodeIgnoresLaterBytes : Prop :=
  ∀ (e : Expect) (r : Reader) (chunk : List Byte),
    (∀ i r', decode e r = .found i r' → decode e (r.feed chunk) = .found i (r'.feed chunk)) ∧
      ∀ r', decode e r = .invalid r' → decode e (r.feed chunk) = .invalid (r'.feed chunk)

/-- 95_test_vectors.md X4, P1, P2, P3, P5, P7, V-F12: the bytes of these vectors at the positions where the elements stand. The CL symbols (R84) with the codewords that file's conventions give CLSTD, first bit first, then the extra field. -/
def Obligations.DecodingExamples : Prop :=
  decode .blockHeader ⟨[0x4B], 0, 0⟩ = .found (.blkFixed true) ⟨[0x4B], 3, 3⟩ ∧
    decode .blockHeader ⟨[0x00], 0, 0⟩ = .found (.blkStored false) ⟨[0x00], 3, 3⟩ ∧
    decode .blockHeader ⟨[0x05], 0, 0⟩ = .found (.blkDynamic true) ⟨[0x05], 3, 3⟩ ∧
    decode .blockHeader ⟨[0x67], 0, 0⟩ = .found (.blkReserved true) ⟨[0x67], 3, 3⟩ ∧
    decode .storedHdr ⟨[0x03, 0x00, 0xFC, 0xFF], 0, 8⟩ = .found (.storedHdr 0x0003 0xFFFC) ⟨[], 0, 40⟩ ∧
    decode .storedByte ⟨[0x61], 0, 40⟩ = .found (.storedByte 0x61) ⟨[], 0, 48⟩ ∧
    decode .dynCounts ⟨[0x05, 0xC1, 0x81], 3, 3⟩ = .found (.dynCounts 0 1 14) ⟨[0x81], 1, 17⟩ ∧
    decode .clLen ⟨[0x81], 1, 17⟩ = .found (.clLen 0) ⟨[0x81], 4, 20⟩ ∧
    decode (.llSym (codeOf fixedLL)) ⟨[0x4B, 0x04], 3, 3⟩ = .found (.lit 0x61) ⟨[0x04], 3, 11⟩ ∧
    decode (.llSym (codeOf fixedLL)) ⟨[0x04, 0x01], 3, 11⟩ = .found .len258 ⟨[0x01], 2, 18⟩ ∧
    decode (.dSym (codeOf fixedD)) ⟨[0x01, 0x00], 2, 18⟩ = .found .dist0 ⟨[0x01, 0x00], 7, 23⟩ ∧
    decode (.llSym (codeOf fixedLL)) ⟨[0x01, 0x00], 7, 23⟩ = .found .eob ⟨[0x00], 6, 30⟩ ∧
    decode (.llSym (codeOf fixedLL)) ⟨[0x18, 0xFD, 0xFF, 0x07], 3, 11⟩ = .found (.len285 0xFFFF) ⟨[0x07], 3, 35⟩ ∧
    decode (.llSym (codeOf fixedLL)) ⟨[0x1B, 0x03], 3, 3⟩ = .found .invalid286 ⟨[0x03], 3, 11⟩ ∧
    decode (.dSym (codeOf fixedD)) ⟨[0xFE, 0xFF, 0x1F], 2, 10⟩ = .found (.dist31 0x3FFF) ⟨[0x1F], 5, 29⟩ ∧
    decode (.clSym (codeOf (List.replicate 13 4 ++ List.replicate 6 5))) ⟨[0x00], 0, 0⟩ =
      .found (.clSet 0) ⟨[0x00], 4, 4⟩ ∧
    decode (.clSym (codeOf (List.replicate 13 4 ++ List.replicate 6 5))) ⟨[0x06], 0, 0⟩ =
      .found (.clSet 6) ⟨[0x06], 4, 4⟩ ∧
    decode (.clSym (codeOf (List.replicate 13 4 ++ List.replicate 6 5))) ⟨[0x03], 0, 0⟩ =
      .found (.clSet 12) ⟨[0x03], 4, 4⟩ ∧
    decode (.clSym (codeOf (List.replicate 13 4 ++ List.replicate 6 5))) ⟨[0x0B], 0, 0⟩ =
      .found (.clSet 13) ⟨[0x0B], 5, 5⟩ ∧
    decode (.clSym (codeOf (List.replicate 13 4 ++ List.replicate 6 5))) ⟨[0x07], 0, 0⟩ =
      .found (.clSet 15) ⟨[0x07], 5, 5⟩ ∧
    decode (.clSym (codeOf (List.replicate 13 4 ++ List.replicate 6 5))) ⟨[0x37], 0, 0⟩ =
      .found (.clRep16 1) ⟨[0x37], 7, 7⟩ ∧
    decode (.clSym (codeOf (List.replicate 13 4 ++ List.replicate 6 5))) ⟨[0x6F], 0, 0⟩ =
      .found (.clZero17 3) ⟨[], 0, 8⟩ ∧
    decode (.clSym (codeOf (List.replicate 13 4 ++ List.replicate 6 5))) ⟨[0xDF, 0x04], 0, 0⟩ =
      .found (.clZero18 0x26) ⟨[0x04], 4, 12⟩

/-- R53, R116. That the value is left in opRes is the model's choice (log entry 8). -/
def Obligations.ReadBitsTakesField : Prop :=
  ∀ (n : Nat) (s : State), n ≤ 8 * s.rd.inq.length - s.rd.bitoff.toNat →
    ∃ v r, exec (.readBits n) s = .next { s with rd := r, opRes := .bits v } ∧ v < 2 ^ n ∧
      (∀ i, i < n → s.rd.bits[i]? = some (v.testBit i)) ∧ r.bits = s.rd.bits.drop n ∧ r.bitpos = s.rd.bitpos + n

/-- R121, R192. The value left in opRes is the model's choice (log entry 8). -/
def Obligations.ReadBitsSuspends : Prop :=
  ∀ (n : Nat) (s : State), 8 * s.rd.inq.length - s.rd.bitoff.toNat < n →
    (s.phase = .idle → exec (.readBits n) s = .next { s with opRes := .suspended }) ∧
      (Inv s → s.phase.inUnit = true →
        ∃ k, s.snap = some k ∧
          exec (.readBits n) s = .next { s with
            rd := k.rd, bfinal := k.bfinal, phase := .idle, snap := none, hdr := DynHeader.blank, mlen := 0, out := [],
            results := s.results ++ [.ok s.out], opRes := .suspended })

/-- R115, with the bits in R52's order. -/
def Obligations.FeedAppendsBytes : Prop :=
  ∀ (chunk : List Byte) (s : State),
    exec (.feed chunk) s = .next { s with rd := { s.rd with inq := s.rd.inq ++ chunk } } ∧
      ((s.rd.inq = [] → s.rd.bitoff = 0) →
        ({ s.rd with inq := s.rd.inq ++ chunk } : Reader).bits =
          s.rd.bits ++ chunk.flatMap fun b => (List.range 8).map b.getLsbD)

/-- R117, and what it comes to on a legal reader (R23). -/
def Obligations.AlignDiscardsPartialByte : Prop :=
  ∀ s : State,
    ∃ r, exec .alignToByte s = .next { s with rd := r } ∧
      r = (if s.rd.bitoff = 0 then s.rd else ⟨s.rd.inq.tail, 0, s.rd.bitpos + (8 - s.rd.bitoff.toNat)⟩) ∧
      (ReaderOk s.rd → r.bitoff = 0 ∧ r.bitpos % 8 = 0 ∧ s.rd.bitpos ≤ r.bitpos ∧ r.bitpos < s.rd.bitpos + 8 ∧
        r.bits = s.rd.bits.drop (r.bitpos - s.rd.bitpos))

/-- R118 (marked there as derived). That the count is left in opRes is the model's choice (log entry 8). -/
def Obligations.AvailCountsBits : Prop :=
  ∀ s : State,
    exec .avail s = .next { s with opRes := .count (8 * s.rd.inq.length - s.rd.bitoff.toNat) } ∧
      s.rd.bits.length = 8 * s.rd.inq.length - s.rd.bitoff.toNat

/-- R127 by the sum it names, R128, R134. The accepted incomplete tables are the spec's own decision D3; the value left in opRes is the model's choice (log entry 8). -/
def Obligations.BuildAcceptsConsistentTables : Prop :=
  ∀ (kind : CodeKind) (lens : List CodeLen) (s : State), lens.length = kind.size →
    (TableAccepted s.cfg.strict kind lens →
        exec (.build kind lens) s = .next { s with opRes := .code (codeOf lens) }) ∧
      (¬TableAccepted s.cfg.strict kind lens →
        ∃ t, exec (.build kind lens) s = .next t ∧
          t.opRes = .raised (match kind with | .ll => .litlenTree | .d => .distTree | .cl => .clTree) ∧
          RaiseEffect (match kind with | .ll => .litlenTree | .d => .distTree | .cl => .clTree) s
            { t with opRes := s.opRes })

/-- R129 in closed form (general knowledge, G18), R130. -/
def Obligations.CanonicalAssignment : Prop :=
  ∀ (lens : List CodeLen) (v : Nat) (l : CodeLen), lens[v]? = some l →
    (l = 0 → (codeOf lens).codeword v = none) ∧
      (l ≠ 0 → (codeOf lens).codeword v =
        some { code := firstCode lens l.toNat + (lens.take v).count l, len := l.toNat, sym := v })

/-- R94, R130: for a table that passes R127 the code is prefix-free. -/
def Obligations.BuiltCodesArePrefixCodes : Prop :=
  ∀ (strict : Bool) (kind : CodeKind) (lens : List CodeLen) (T : Code),
    lens.length = kind.size → buildCode strict kind lens = some T → T.wf = true

/-- R90 (marked there as derived), R91 (general knowledge, G13). -/
def Obligations.FixedCodewords : Prop :=
  (∀ v, v < 288 → (codeOf fixedLL).codeword v = some
      (if 256 ≤ v ∧ v ≤ 279 then ⟨v - 256, 7, v⟩
      else if v ≤ 143 then ⟨0x30 + v, 8, v⟩
      else if 280 ≤ v ∧ v ≤ 287 then ⟨0xC0 + (v - 280), 8, v⟩
      else ⟨0x190 + (v - 144), 9, v⟩)) ∧
    ∀ v, v < 32 → (codeOf fixedD).codeword v = some ⟨v, 5, v⟩

/-- R132, R54. That the symbol is left in opRes is the model's choice (log entry 8). -/
def Obligations.DecodeReadsCodeword : Prop :=
  ∀ (T : Code) (w : Codeword) (rest : List Bool) (s : State),
    T.wf = true → w ∈ T → s.rd.bits = w.bits ++ rest →
      ∃ r, exec (.decode T) s = .next { s with rd := r, opRes := .symbol w.sym } ∧ r.bits = rest ∧
        r.bitpos = s.rd.bitpos + w.len

/-- R133's cases of a decode. What is left in opRes is the model's choice (log entry 8); what the raise (R225) leaves as it was is the spec's own decision D25. -/
def Obligations.DecodeOfIncompleteCodes : Prop :=
  ∀ (s : State) (v : Nat),
    (∃ t, exec (.decode []) s = .next t ∧ t.opRes = .raised .invalidCode ∧
        RaiseEffect .invalidCode s { t with opRes := s.opRes }) ∧
      ∀ (b : Bool) (rest : List Bool), s.rd.bits = b :: rest →
        ∃ r, r.bits = rest ∧ r.bitpos = s.rd.bitpos + 1 ∧
          (b = false → exec (.decode [⟨0, 1, v⟩]) s = .next { s with rd := r, opRes := .symbol v }) ∧
          (b = true → ∃ t, exec (.decode [⟨0, 1, v⟩]) s = .next t ∧ t.opRes = .raised .invalidCode ∧
            RaiseEffect .invalidCode { s with rd := r } { t with opRes := s.opRes })

/-- R140, with MemWrite as in R58. -/
def Obligations.AppendWritesWindowAndOutput : Prop :=
  ∀ (b : Byte) (s : State), ∃ t, exec (.append b) s = .next t ∧ AppendEffect b s t ∧
    t = { s with win := t.win, wpos := t.wpos, out := t.out, total := t.total }

/-- R141; its overlap, distance 65536 and long copies are R143 to R145. What a raise leaves as it was is the spec's own decision D25. -/
def Obligations.CopyMatchCopiesOrRaises : Prop :=
  ∀ (d l : Nat) (s : State),
    (s.total < d → ∃ t, exec (.copyMatch d l) s = .next t ∧ RaiseEffect .distTooFar s t) ∧
      (WindowOk s → 1 ≤ d → d ≤ 65536 → d ≤ s.total →
        ∃ t, exec (.copyMatch d l) s = .next t ∧ CopyEffect d l s t ∧
          t = { s with win := t.win, wpos := t.wpos, out := t.out, total := t.total })

/-- R150, R151, R155, R156, R89, R91. -/
def Obligations.BlockHeadersBegin : Prop :=
  ∀ (f : Bool) (s : State),
    exec (.blkStored f) s = .next { s with
        bfinal := f
        rd := if s.rd.bitoff = 0 then s.rd else ⟨s.rd.inq.tail, 0, s.rd.bitpos + (8 - s.rd.bitoff.toNat)⟩
        phase := .storedHdr } ∧
      exec (.blkFixed f) s = .next { s with
        bfinal := f, kind := .fixed, fsm := .body
        llLen := List.replicate 144 8 ++ List.replicate 112 9 ++ List.replicate 24 7 ++ List.replicate 8 8
        distLen := List.replicate 32 5
        phase := .between, snap := none, hdr := DynHeader.blank, mlen := 0 } ∧
      exec (.blkDynamic f) s = .next { s with bfinal := f, phase := .dynCounts }

/-- R166. What a raise leaves as it was is the spec's own decision D25. -/
def Obligations.ReservedBlockRaises : Prop :=
  (∀ (f : Bool) (s : State),
      ∃ t, exec (.blkReserved f) s = .next t ∧ RaiseEffect .reservedBtype { s with bfinal := f } t) ∧
    ∀ (f : Bool) (rest : List Bool) (s : State),
      s.phase = .between → s.fsm = .hdr → s.rd.bits = f :: true :: true :: rest →
        ∃ r t, r.bits = rest ∧ r.bitpos = s.rd.bitpos + 3 ∧ step s = .next t ∧
          RaiseEffect .reservedBtype { s with rd := r, bfinal := f } t

/-- R152. What a raise leaves as it was is the spec's own decision D25. -/
def Obligations.StoredHeaderIsChecked : Prop :=
  ∀ (len nlen : BitVec 16) (s : State),
    (nlen = len ^^^ 0xFFFF#16 → exec (.storedHdr len nlen) s = .next { s with
        rem := len, fsm := .stored, phase := .between, snap := none, hdr := DynHeader.blank, mlen := 0 }) ∧
      (nlen ≠ len ^^^ 0xFFFF#16 → ∃ t, exec (.storedHdr len nlen) s = .next t ∧ RaiseEffect .storedNlen s t)

/-- R153. -/
def Obligations.StoredByteIsCopied : Prop :=
  ∀ (b : Byte) (s : State), ∃ t, exec (.storedByte b) s = .next t ∧ AppendEffect b s t ∧
    t = { s with
      win := t.win, wpos := t.wpos, out := t.out, total := t.total, rem := s.rem - 1
      phase := .between, snap := none, hdr := DynHeader.blank, mlen := 0 }

/-- R154, R169, R35. -/
def Obligations.BlocksEnd : Prop :=
  ∀ (i : Instr) (s : State), i = .storedEnd ∨ i = .eob →
    ∃ t, exec i s = .next t ∧ t.eof = s.bfinal ∧
      t = { s with fsm := if s.bfinal = true then .done else .hdr, phase := .between, snap := none, hdr := DynHeader.blank, mlen := 0 }

/-- R168. -/
def Obligations.LiteralIsAppended : Prop :=
  ∀ (b : Byte) (s : State), ∃ t, exec (.lit b) s = .next t ∧ AppendEffect b s t ∧
    t = { s with
      win := t.win, wpos := t.wpos, out := t.out, total := t.total, phase := .between, snap := none, hdr := DynHeader.blank, mlen := 0 }

/-- R92's 29 rows, R170, R171. -/
def Obligations.LengthSymbolsHoldTheLength : Prop :=
  LengthHeld .len257 3 ∧
    LengthHeld .len258 4 ∧
    LengthHeld .len259 5 ∧
    LengthHeld .len260 6 ∧
    LengthHeld .len261 7 ∧
    LengthHeld .len262 8 ∧
    LengthHeld .len263 9 ∧
    LengthHeld .len264 10 ∧
    (∀ e, LengthHeld (.len265 e) (11 + e.toNat)) ∧
    (∀ e, LengthHeld (.len266 e) (13 + e.toNat)) ∧
    (∀ e, LengthHeld (.len267 e) (15 + e.toNat)) ∧
    (∀ e, LengthHeld (.len268 e) (17 + e.toNat)) ∧
    (∀ e, LengthHeld (.len269 e) (19 + e.toNat)) ∧
    (∀ e, LengthHeld (.len270 e) (23 + e.toNat)) ∧
    (∀ e, LengthHeld (.len271 e) (27 + e.toNat)) ∧
    (∀ e, LengthHeld (.len272 e) (31 + e.toNat)) ∧
    (∀ e, LengthHeld (.len273 e) (35 + e.toNat)) ∧
    (∀ e, LengthHeld (.len274 e) (43 + e.toNat)) ∧
    (∀ e, LengthHeld (.len275 e) (51 + e.toNat)) ∧
    (∀ e, LengthHeld (.len276 e) (59 + e.toNat)) ∧
    (∀ e, LengthHeld (.len277 e) (67 + e.toNat)) ∧
    (∀ e, LengthHeld (.len278 e) (83 + e.toNat)) ∧
    (∀ e, LengthHeld (.len279 e) (99 + e.toNat)) ∧
    (∀ e, LengthHeld (.len280 e) (115 + e.toNat)) ∧
    (∀ e, LengthHeld (.len281 e) (131 + e.toNat)) ∧
    (∀ e, LengthHeld (.len282 e) (163 + e.toNat)) ∧
    (∀ e, LengthHeld (.len283 e) (195 + e.toNat)) ∧
    (∀ e, LengthHeld (.len284 e) (227 + e.toNat)) ∧
    (∀ e, LengthHeld (.len285 e) (3 + e.toNat))

/-- R173. -/
def Obligations.InvalidSymbolsRaise : Prop :=
  ∀ (i : Instr) (s : State), i = .invalid286 ∨ i = .invalid287 →
    ∃ t, exec i s = .next t ∧ RaiseEffect .invalidLitlenSym s t

/-- R93's 32 rows, R170, R172. -/
def Obligations.DistanceSymbolsCopy : Prop :=
  DistCopies .dist0 1 ∧
    DistCopies .dist1 2 ∧
    DistCopies .dist2 3 ∧
    DistCopies .dist3 4 ∧
    (∀ e, DistCopies (.dist4 e) (5 + e.toNat)) ∧
    (∀ e, DistCopies (.dist5 e) (7 + e.toNat)) ∧
    (∀ e, DistCopies (.dist6 e) (9 + e.toNat)) ∧
    (∀ e, DistCopies (.dist7 e) (13 + e.toNat)) ∧
    (∀ e, DistCopies (.dist8 e) (17 + e.toNat)) ∧
    (∀ e, DistCopies (.dist9 e) (25 + e.toNat)) ∧
    (∀ e, DistCopies (.dist10 e) (33 + e.toNat)) ∧
    (∀ e, DistCopies (.dist11 e) (49 + e.toNat)) ∧
    (∀ e, DistCopies (.dist12 e) (65 + e.toNat)) ∧
    (∀ e, DistCopies (.dist13 e) (97 + e.toNat)) ∧
    (∀ e, DistCopies (.dist14 e) (129 + e.toNat)) ∧
    (∀ e, DistCopies (.dist15 e) (193 + e.toNat)) ∧
    (∀ e, DistCopies (.dist16 e) (257 + e.toNat)) ∧
    (∀ e, DistCopies (.dist17 e) (385 + e.toNat)) ∧
    (∀ e, DistCopies (.dist18 e) (513 + e.toNat)) ∧
    (∀ e, DistCopies (.dist19 e) (769 + e.toNat)) ∧
    (∀ e, DistCopies (.dist20 e) (1025 + e.toNat)) ∧
    (∀ e, DistCopies (.dist21 e) (1537 + e.toNat)) ∧
    (∀ e, DistCopies (.dist22 e) (2049 + e.toNat)) ∧
    (∀ e, DistCopies (.dist23 e) (3073 + e.toNat)) ∧
    (∀ e, DistCopies (.dist24 e) (4097 + e.toNat)) ∧
    (∀ e, DistCopies (.dist25 e) (6145 + e.toNat)) ∧
    (∀ e, DistCopies (.dist26 e) (8193 + e.toNat)) ∧
    (∀ e, DistCopies (.dist27 e) (12289 + e.toNat)) ∧
    (∀ e, DistCopies (.dist28 e) (16385 + e.toNat)) ∧
    (∀ e, DistCopies (.dist29 e) (24577 + e.toNat)) ∧
    (∀ e, DistCopies (.dist30 e) (32769 + e.toNat)) ∧
    (∀ e, DistCopies (.dist31 e) (49153 + e.toNat))

/-- R93, R142. -/
def Obligations.DistanceSymbolsTooFar : Prop :=
  DistTooFar .dist0 1 ∧
    DistTooFar .dist1 2 ∧
    DistTooFar .dist2 3 ∧
    DistTooFar .dist3 4 ∧
    (∀ e, DistTooFar (.dist4 e) (5 + e.toNat)) ∧
    (∀ e, DistTooFar (.dist5 e) (7 + e.toNat)) ∧
    (∀ e, DistTooFar (.dist6 e) (9 + e.toNat)) ∧
    (∀ e, DistTooFar (.dist7 e) (13 + e.toNat)) ∧
    (∀ e, DistTooFar (.dist8 e) (17 + e.toNat)) ∧
    (∀ e, DistTooFar (.dist9 e) (25 + e.toNat)) ∧
    (∀ e, DistTooFar (.dist10 e) (33 + e.toNat)) ∧
    (∀ e, DistTooFar (.dist11 e) (49 + e.toNat)) ∧
    (∀ e, DistTooFar (.dist12 e) (65 + e.toNat)) ∧
    (∀ e, DistTooFar (.dist13 e) (97 + e.toNat)) ∧
    (∀ e, DistTooFar (.dist14 e) (129 + e.toNat)) ∧
    (∀ e, DistTooFar (.dist15 e) (193 + e.toNat)) ∧
    (∀ e, DistTooFar (.dist16 e) (257 + e.toNat)) ∧
    (∀ e, DistTooFar (.dist17 e) (385 + e.toNat)) ∧
    (∀ e, DistTooFar (.dist18 e) (513 + e.toNat)) ∧
    (∀ e, DistTooFar (.dist19 e) (769 + e.toNat)) ∧
    (∀ e, DistTooFar (.dist20 e) (1025 + e.toNat)) ∧
    (∀ e, DistTooFar (.dist21 e) (1537 + e.toNat)) ∧
    (∀ e, DistTooFar (.dist22 e) (2049 + e.toNat)) ∧
    (∀ e, DistTooFar (.dist23 e) (3073 + e.toNat)) ∧
    (∀ e, DistTooFar (.dist24 e) (4097 + e.toNat)) ∧
    (∀ e, DistTooFar (.dist25 e) (6145 + e.toNat)) ∧
    (∀ e, DistTooFar (.dist26 e) (8193 + e.toNat)) ∧
    (∀ e, DistTooFar (.dist27 e) (12289 + e.toNat)) ∧
    (∀ e, DistTooFar (.dist28 e) (16385 + e.toNat)) ∧
    (∀ e, DistTooFar (.dist29 e) (24577 + e.toNat)) ∧
    (∀ e, DistTooFar (.dist30 e) (32769 + e.toNat)) ∧
    (∀ e, DistTooFar (.dist31 e) (49153 + e.toNat))

/-- R156, R157, R81. -/
def Obligations.DynamicCounts : Prop :=
  ∀ (hlit hdist : BitVec 5) (hclen : BitVec 4) (s : State),
    (hlit.toNat ≤ 29 → exec (.dynCounts hlit hdist hclen) s = .next { s with
        hdr :=
          { nlen := hlit.toNat + 257, ndist := hdist.toNat + 1, ncode := hclen.toNat + 4
            clLen := List.replicate 19 0, nread := 0, lens := [] }
        phase := .clLens }) ∧
      (30 ≤ hlit.toNat → ∃ t, exec (.dynCounts hlit hdist hclen) s = .next t ∧ RaiseEffect .hlitRange s t)

/-- R158, R82: CL codes are never accepted incomplete. -/
def Obligations.CodeLengthCodeIsBuilt : Prop :=
  ∀ (l : BitVec 3) (s : State) (h : DynHeader),
    s.hdr.nread < s.hdr.ncode → s.hdr.ncode ≤ 19 → s.hdr.clLen.length = 19 →
      h = { s.hdr with
        clLen := s.hdr.clLen.set
          ([16, 17, 18, 0, 8, 7, 9, 6, 10, 5, 11, 4, 12, 3, 13, 2, 14, 1, 15].getD s.hdr.nread 0) (l.setWidth 4)
        nread := s.hdr.nread + 1 } →
      (s.hdr.nread + 1 < s.hdr.ncode → exec (.clLen l) s = .next { s with hdr := h, phase := .clLens }) ∧
      (s.hdr.nread + 1 = s.hdr.ncode → kraftSum h.clLen = 2 ^ 15 →
        exec (.clLen l) s = .next { s with hdr := h, phase := .clSyms }) ∧
      (s.hdr.nread + 1 = s.hdr.ncode → kraftSum h.clLen ≠ 2 ^ 15 →
        ∃ t, exec (.clLen l) s = .next t ∧ RaiseEffect .clTree { s with hdr := h } t)

/-- R160 to R163, before the end of the sequence. -/
def Obligations.CodeLengthSymbolsExtend : Prop :=
  ∀ (s : State) (n : Nat), n = s.hdr.nlen + s.hdr.ndist →
    (∀ v, s.hdr.lens.length + 1 < n →
        exec (.clSet v) s = .next { s with hdr := { s.hdr with lens := s.hdr.lens ++ [v] }, phase := .clSyms }) ∧
      (∀ e v ls, s.hdr.lens = ls ++ [v] → s.hdr.lens.length + (3 + e.toNat) < n →
        exec (.clRep16 e) s = .next { s with
          hdr := { s.hdr with lens := s.hdr.lens ++ List.replicate (3 + e.toNat) v }, phase := .clSyms }) ∧
      (∀ e, s.hdr.lens.length + (3 + e.toNat) < n →
        exec (.clZero17 e) s = .next { s with
          hdr := { s.hdr with lens := s.hdr.lens ++ List.replicate (3 + e.toNat) 0 }, phase := .clSyms }) ∧
      ∀ e, s.hdr.lens.length + (11 + e.toNat) < n →
        exec (.clZero18 e) s = .next { s with
          hdr := { s.hdr with lens := s.hdr.lens ++ List.replicate (11 + e.toNat) 0 }, phase := .clSyms }

/-- R161, R164. -/
def Obligations.CodeLengthRunsAreChecked : Prop :=
  ∀ (s : State) (n : Nat), n = s.hdr.nlen + s.hdr.ndist →
    (∀ e, s.hdr.lens = [] → ∃ t, exec (.clRep16 e) s = .next t ∧ RaiseEffect .clRepeatNoPrev s t) ∧
      (∀ e, s.hdr.lens ≠ [] → n < s.hdr.lens.length + (3 + e.toNat) →
        ∃ t, exec (.clRep16 e) s = .next t ∧ RaiseEffect .clOverrun s t) ∧
      (∀ e, n < s.hdr.lens.length + (3 + e.toNat) →
        ∃ t, exec (.clZero17 e) s = .next t ∧ RaiseEffect .clOverrun s t) ∧
      ∀ e, n < s.hdr.lens.length + (11 + e.toNat) →
        ∃ t, exec (.clZero18 e) s = .next t ∧ RaiseEffect .clOverrun s t

/-- R165, R229's order. -/
def Obligations.DynamicHeaderFinishes : Prop :=
  ∀ (s : State) (i : Instr) (vs lens ll d : List CodeLen),
    ((∃ v, i = .clSet v ∧ vs = [v]) ∨
      (∃ e v ls, i = .clRep16 e ∧ s.hdr.lens = ls ++ [v] ∧ vs = List.replicate (3 + e.toNat) v) ∨
      (∃ e, i = .clZero17 e ∧ vs = List.replicate (3 + e.toNat) 0) ∨
      ∃ e, i = .clZero18 e ∧ vs = List.replicate (11 + e.toNat) 0) →
    s.hdr.CountsOk → lens = s.hdr.lens ++ vs → lens.length = s.hdr.nlen + s.hdr.ndist →
    ll = lens.take s.hdr.nlen ++ List.replicate (288 - s.hdr.nlen) 0 →
    d = lens.drop s.hdr.nlen ++ List.replicate (32 - s.hdr.ndist) 0 →
    ∃ t, exec i s = .next t ∧
      (lens[256]? = some 0 → RaiseEffect .missingEob { s with hdr := { s.hdr with lens := lens } } t) ∧
      (lens[256]? ≠ some 0 → ¬TableAccepted s.cfg.strict .ll ll →
        RaiseEffect .litlenTree { s with hdr := { s.hdr with lens := lens } } t) ∧
      (lens[256]? ≠ some 0 → TableAccepted s.cfg.strict .ll ll → ¬TableAccepted s.cfg.strict .d d →
        RaiseEffect .distTree { s with hdr := { s.hdr with lens := lens } } t) ∧
      (lens[256]? ≠ some 0 → TableAccepted s.cfg.strict .ll ll → TableAccepted s.cfg.strict .d d →
        t = { s with
          llLen := ll, distLen := d, kind := .dynamic, fsm := .body
          phase := .between, snap := none, hdr := DynHeader.blank, mlen := 0 })

/-- R206. That the result goes to the list results is log entry 3; that EOF answers while a call runs too is the model's choice (log entry 19). -/
def Obligations.EofReadsTheFlag : Prop :=
  ∀ s : State, ∃ b, exec .eof s = .next { s with results := s.results ++ [.eof b] } ∧ (b = true ↔ s.fsm = .done)

/-- R195 up to its loop. That the loop is the following steps is the model's choice (log entry 4). -/
def Obligations.DecompressFeedsAndRuns : Prop :=
  ∀ (chunk : List Byte) (s : State), s.phase = .idle → (s.fsm = .hdr ∨ s.fsm = .stored ∨ s.fsm = .body) →
    exec (.decompress chunk) s = .next { s with
      rd := { s.rd with inq := s.rd.inq ++ chunk }, out := [], phase := .between }

/-- R197, R230, R226. -/
def Obligations.DecompressOnFailedSession : Prop :=
  ∀ (chunk : List Byte) (s : State), Inv s → s.phase = .idle → s.fsm = .failed →
    exec (.decompress chunk) s = .next { s with results := s.results ++ [.badData .sessionFailed] } ∧
      (HostResult.badData .sessionFailed).message =
        some ("Bad Deflate64 data: " ++ Config.detailText .sessionFailed)

/-- R196, R203. -/
def Obligations.DecompressOnEndedSession : Prop :=
  ∀ (chunk : List Byte) (s : State), Inv s → s.phase = .idle → s.fsm = .done →
    (chunk = [] ∨ s.cfg.trailing = .ignore →
        exec (.decompress chunk) s = .next { s with results := s.results ++ [.ok []] }) ∧
      (chunk ≠ [] → s.cfg.trailing = .error →
        exec (.decompress chunk) s = .next { s with
          fsm := .failed, err := some .trailingData, results := s.results ++ [.badData .trailingData] })

/-- R255: the model defines no result for overlapping calls (U12: refuse). -/
def Obligations.OverlappingCallsHaveNoResult : Prop :=
  ∀ (chunk : List Byte) (s : State), s.phase ≠ .idle → exec (.decompress chunk) s = .refused .overlappingCall

/-- R100, R194, R191: the format by fsm and the place in the unit (the phases are the model's register, log entry 4; that fsm is not looked at inside a unit is the model's choice for states no run reaches, log entry 16). R192. -/
def Obligations.StepRunsDecodedElement : Prop :=
  (∀ s : State,
      (s.phase = .idle → s.expect = none) ∧
        (s.phase = .between →
          (s.fsm = .hdr → s.expect = some .blockHeader) ∧
          (s.fsm = .stored → s.rem ≠ 0 → s.expect = some .storedByte) ∧
          (s.fsm = .stored → s.rem = 0 → s.expect = some .storedEnd) ∧
          (s.fsm = .body → s.expect = some (.llSym (codeOf s.llLen))) ∧
          (s.fsm = .done ∨ s.fsm = .failed → s.expect = none)) ∧
        (s.phase = .storedHdr → s.expect = some .storedHdr) ∧
        (s.phase = .dynCounts → s.expect = some .dynCounts) ∧
        (s.phase = .clLens → s.expect = some .clLen) ∧
        (s.phase = .clSyms → s.expect = some (.clSym (codeOf s.hdr.clLen))) ∧
        (s.phase = .dist → s.expect = some (.dSym (codeOf s.distLen)))) ∧
    ∀ (s : State) (e : Expect) (i : Instr) (r : Reader),
      s.phase ≠ .idle → s.expect = some e → decode e s.rd = .found i r →
        step s = exec i { s with rd := r, snap := if s.phase = .between then some s.capture else s.snap }

/-- R7, R238; the queue is the model's (log entry 3). -/
def Obligations.StepServesTheHost : Prop :=
  ∀ s : State, s.phase = .idle →
    (s.calls = [] → step s = .next s) ∧
      (∀ cs, s.calls = .reset :: cs → step s = exec .reset { s with calls := cs }) ∧
      (∀ cs, s.calls = .eof :: cs → step s = exec .eof { s with calls := cs }) ∧
      ∀ cs chunk, s.calls = .decompress chunk :: cs → step s = exec (.decompress chunk) { s with calls := cs }

/-- R192, R224, R39. -/
def Obligations.SuspendRestoresTheUnit : Prop :=
  ∀ (s : State) (e : Expect), Inv s → s.phase ≠ .idle → s.expect = some e → decode e s.rd = .suspend →
    (s.phase = .between →
        step s = .next { s with phase := .idle, out := [], results := s.results ++ [.ok s.out] }) ∧
      (s.phase.inUnit = true →
        ∃ k, s.snap = some k ∧
          step s = .next { s with
            rd := k.rd, bfinal := k.bfinal, phase := .idle, snap := none, hdr := DynHeader.blank, mlen := 0, out := [],
            results := s.results ++ [.ok s.out] })

/-- R132, R227. -/
def Obligations.InvalidCodewordRaises : Prop :=
  ∀ (s : State) (e : Expect) (r : Reader),
    s.phase ≠ .idle → s.expect = some e → decode e s.rd = .invalid r →
      ∃ t, step s = .next t ∧ RaiseEffect .invalidCode { s with rd := r } t

/-- R201, R203. -/
def Obligations.EndOfStreamReturns : Prop :=
  ∀ (s : State) (rest : List Byte), Inv s → s.phase = .between → s.fsm = .done →
    rest = (if s.rd.bitoff = 0 then s.rd.inq else s.rd.inq.tail) →
      (rest = [] ∨ s.cfg.trailing = .ignore →
        step s = .next { s with
          rd := ⟨[], 0, s.rd.bitpos⟩, phase := .idle, out := [], results := s.results ++ [.ok s.out] }) ∧
      (rest ≠ [] → s.cfg.trailing = .error →
        step s = .next { s with
          rd := ⟨[], 0, s.rd.bitpos⟩, fsm := .failed, err := some .trailingData, phase := .idle, out := []
          results := s.results ++ [.badData .trailingData] })

/-- R230, R197, R36. -/
def Obligations.FailedIsTerminal : Prop :=
  ∀ s t : State, s.phase = .idle → s.fsm = .failed → ¬s.resetNext → step s = .next t →
    t.fsm = .failed ∧ t.eof = false ∧ t.err = s.err ∧ t.rd = s.rd ∧ t.win = s.win ∧ t.wpos = s.wpos ∧ t.total = s.total

/-- R190: no other transition exists, and its rows' conditions. -/
def Obligations.NoOtherTransition : Prop :=
  ∀ s t : State, Inv s → ¬s.resetNext → step s = .next t →
    s.fsm.mayBecome t.fsm = true ∧
      (s.fsm = .hdr → t.fsm = .stored → s.phase = .storedHdr) ∧
      (s.fsm = .hdr → t.fsm = .body →
        (s.phase = .between ∧ t.kind = .fixed) ∨ (s.phase = .clSyms ∧ t.kind = .dynamic)) ∧
      (s.fsm = .stored → t.fsm = .stored → t.rem = s.rem ∨ (s.rem ≠ 0 ∧ t.rem = s.rem - 1)) ∧
      (s.fsm = .stored → t.fsm ≠ .stored → s.rem = 0 ∧ t.fsm = if s.bfinal = true then .done else .hdr) ∧
      (s.fsm = .body → t.fsm ≠ .body → t.fsm ≠ .failed → t.fsm = if s.bfinal = true then .done else .hdr) ∧
      (s.fsm = .done → t.fsm = .failed → s.cfg.trailing = .error)

/-- R41 item 6, R146, R252. -/
def Obligations.TotalNeverDecreases : Prop :=
  ∀ s t : State, Inv s → ¬s.resetNext → step s = .next t → s.total ≤ t.total

/-- R175, R28, R29. -/
def Obligations.CodeTablesChangeOnlyAtHeaders : Prop :=
  ∀ s t : State, Inv s → ¬s.resetNext → step s = .next t → t.llLen ≠ s.llLen ∨ t.distLen ≠ s.distLen →
    s.fsm = .hdr ∧ t.fsm = .body ∧ t.phase = .between

/-- R227, R225. -/
def Obligations.ErrorsArePrecise : Prop :=
  ∀ s t : State, Inv s → s.fsm ≠ .failed → step s = .next t → t.fsm = .failed →
    t.win = s.win ∧ t.wpos = s.wpos ∧ t.total = s.total ∧ t.llLen = s.llLen ∧ t.distLen = s.distLen ∧ t.phase = .idle ∧
      t.out = [] ∧ ∃ c, t.err = some c ∧ t.results = s.results ++ [.badData c]

/-- R43, R207 (that RESET keeps them: log entry 6). -/
def Obligations.ParametersNeverChange : Prop :=
  ∀ s t : State, step s = .next t → t.cfg = s.cfg

/-- R37; STATUS is the spec's own decision D27. -/
def Obligations.StatusShowsTheState : Prop :=
  ∀ s : State,
    s.status.extractLsb' 0 3 =
        (match s.fsm with | .hdr => 0#3 | .stored => 1#3 | .body => 2#3 | .done => 3#3 | .failed => 4#3) ∧
      s.status.getLsbD 3 = decide (s.fsm = .body ∧ s.kind = .dynamic) ∧
      s.status.getLsbD 4 =
        (match s.fsm with | .stored => s.bfinal | .body => s.bfinal | .done => true | .hdr => false | .failed => false) ∧
      s.status.getLsbD 5 = decide (s.fsm = .done) ∧
      s.status.extractLsb' 6 2 = 0 ∧
      s.status.extractLsb' 8 4 =
        (match s.fsm, s.err with | .failed, some c => BitVec.ofNat 4 c.number | _, _ => 0#4) ∧
      s.status.extractLsb' 12 4 = 0 ∧
      s.status.extractLsb' 16 16 = (if s.fsm = .stored then s.rem else 0)

/-- R221 to R223, R226. -/
def Obligations.CauseCodes : Prop :=
  [Cause.reservedBtype, .storedNlen, .hlitRange, .clTree, .clRepeatNoPrev, .clOverrun, .missingEob, .litlenTree, .distTree,
      .invalidCode, .invalidLitlenSym, .distTooFar, .trailingData, .sessionFailed].map Cause.number =
      (List.range 14).map (· + 1) ∧
    (∀ c : Cause, (c.kind = .distanceTooFar ↔ c = .distTooFar) ∧ (c.kind = .sessionFailed ↔ c = .sessionFailed)) ∧
    ∀ c : Cause, (HostResult.badData c).message = some ("Bad Deflate64 data: " ++ Config.detailText c)

/-- R111: the tables' ranges are contiguous and cover every length and distance. -/
def Obligations.MatchExpansionMeansTheMatch : Prop :=
  ∀ l d : Nat, 3 ≤ l → l ≤ 65538 → 1 ≤ d → d ≤ 65536 →
    ∃ i j, expandMatch l d = some (i, j) ∧ LengthHeld i l ∧ DistCopies j d
end

