-- ==== Sys2Proof/Laws/Huffman.lean ====
section
/-! SUPPORT. What the tests of DECODE say of the code (41_huffman.md R132), what one turn of its loop does, and the two
ways BUILD ends (R131). -/

namespace Sys2Proof

/-- A symbol found is that of a codeword of exactly these bits. -/
theorem Code.symbol_eq_some {T : Code} {c l s : Nat} (h : T.symbol c l = some s) :
    ∃ w ∈ T, w.len = l ∧ w.code = c ∧ w.sym = s := by
  obtain ⟨w, hw, hs⟩ := Option.map_eq_some_iff.mp h
  have hp := List.find?_some hw
  simp only [Bool.and_eq_true, beq_iff_eq] at hp
  exact ⟨w, List.mem_of_find?_eq_some hw, hp.1, hp.2, hs⟩

/-- No symbol is found when no codeword is exactly these bits. -/
theorem Code.symbol_eq_none {T : Code} {c l : Nat} : T.symbol c l = none ↔ ∀ w ∈ T, ¬(w.len = l ∧ w.code = c) := by
  simp [Code.symbol]

/-- The bits so far go on exactly when some longer codeword begins with them. -/
theorem Code.continues_iff {T : Code} {c l : Nat} :
    T.continues c l = true ↔ ∃ w ∈ T, l < w.len ∧ w.code >>> (w.len - l) = c := by
  simp [Code.continues]

/-- One turn of DECODE's loop: the symbol, an invalid code, a suspension, or one more bit. -/
theorem decodeSymFrom_succ (T : Code) (fuel c l : Nat) (r : Reader) :
    (∃ s, T.symbol c l = some s ∧ decodeSymFrom T (fuel + 1) c l r = .sym s r) ∨
      (T.symbol c l = none ∧ T.continues c l = false ∧ decodeSymFrom T (fuel + 1) c l r = .invalid r) ∨
      (T.symbol c l = none ∧ T.continues c l = true ∧ r.readBits 1 = none ∧
        decodeSymFrom T (fuel + 1) c l r = .suspend) ∨
      ∃ b r', T.symbol c l = none ∧ T.continues c l = true ∧ r.readBits 1 = some (b, r') ∧
        decodeSymFrom T (fuel + 1) c l r = decodeSymFrom T fuel (2 * c + b) (l + 1) r' := by
  rw [decodeSymFrom]
  cases hs : T.symbol c l with
  | some s => exact .inl ⟨s, rfl, rfl⟩
  | none =>
    cases hc : T.continues c l with
    | false => exact .inr (.inl ⟨rfl, rfl, rfl⟩)
    | true =>
      cases hr : r.readBits 1 with
      | none => exact .inr (.inr (.inl ⟨rfl, rfl, rfl, rfl⟩))
      | some p => exact .inr (.inr (.inr ⟨p.1, p.2, rfl, rfl, rfl, rfl⟩))

/-- BUILD answers the table's code or raises (R131). -/
theorem buildCode_cases (strict : Bool) (kind : CodeKind) (lens : List CodeLen) :
    (buildAccepts strict kind lens = true ∧ buildCode strict kind lens = some (codeOf lens)) ∨
      (buildAccepts strict kind lens = false ∧ buildCode strict kind lens = none) := by
  unfold buildCode
  cases buildAccepts strict kind lens <;> simp

/-- A CL code is accepted only if complete (R128, 43_block_decoder.md R158). -/
theorem buildAccepts_cl {strict : Bool} {lens : List CodeLen} :
    buildAccepts strict .cl lens = true ↔ leftover lens = some 0 := by
  unfold buildAccepts
  cases leftover lens <;> simp [acceptIncomplete]

end Sys2Proof
end

