-- ==== Sys2Proof/Laws/State.lean ====
section
/-! SUPPORT. One simp lemma per field per update of State: what each shared update writes, and that it leaves every
other field as it was. -/

namespace Sys2Proof.Machine

/-! ### commit (44_fsm_host.md R191) -/

@[simp] theorem State.commit_rd (s : State) : (s.commit).rd = s.rd := rfl

@[simp] theorem State.commit_fsm (s : State) : (s.commit).fsm = s.fsm := rfl

@[simp] theorem State.commit_bfinal (s : State) : (s.commit).bfinal = s.bfinal := rfl

@[simp] theorem State.commit_rem (s : State) : (s.commit).rem = s.rem := rfl

@[simp] theorem State.commit_kind (s : State) : (s.commit).kind = s.kind := rfl

@[simp] theorem State.commit_llLen (s : State) : (s.commit).llLen = s.llLen := rfl

@[simp] theorem State.commit_distLen (s : State) : (s.commit).distLen = s.distLen := rfl

@[simp] theorem State.commit_win (s : State) : (s.commit).win = s.win := rfl

@[simp] theorem State.commit_wpos (s : State) : (s.commit).wpos = s.wpos := rfl

@[simp] theorem State.commit_out (s : State) : (s.commit).out = s.out := rfl

@[simp] theorem State.commit_total (s : State) : (s.commit).total = s.total := rfl

@[simp] theorem State.commit_err (s : State) : (s.commit).err = s.err := rfl

@[simp] theorem State.commit_snap (s : State) : (s.commit).snap = none := rfl

@[simp] theorem State.commit_hdr (s : State) : (s.commit).hdr = DynHeader.blank := rfl

@[simp] theorem State.commit_mlen (s : State) : (s.commit).mlen = 0 := rfl

@[simp] theorem State.commit_phase (s : State) : (s.commit).phase = .between := rfl

@[simp] theorem State.commit_calls (s : State) : (s.commit).calls = s.calls := rfl

@[simp] theorem State.commit_results (s : State) : (s.commit).results = s.results := rfl

@[simp] theorem State.commit_opRes (s : State) : (s.commit).opRes = s.opRes := rfl

@[simp] theorem State.commit_cfg (s : State) : (s.commit).cfg = s.cfg := rfl

/-! ### emit (10_state.md R33) -/

@[simp] theorem State.emit_rd (b : Byte) (s : State) : (s.emit b).rd = s.rd := rfl

@[simp] theorem State.emit_fsm (b : Byte) (s : State) : (s.emit b).fsm = s.fsm := rfl

@[simp] theorem State.emit_bfinal (b : Byte) (s : State) : (s.emit b).bfinal = s.bfinal := rfl

@[simp] theorem State.emit_rem (b : Byte) (s : State) : (s.emit b).rem = s.rem := rfl

@[simp] theorem State.emit_kind (b : Byte) (s : State) : (s.emit b).kind = s.kind := rfl

@[simp] theorem State.emit_llLen (b : Byte) (s : State) : (s.emit b).llLen = s.llLen := rfl

@[simp] theorem State.emit_distLen (b : Byte) (s : State) : (s.emit b).distLen = s.distLen := rfl

@[simp] theorem State.emit_win (b : Byte) (s : State) : (s.emit b).win = s.win := rfl

@[simp] theorem State.emit_wpos (b : Byte) (s : State) : (s.emit b).wpos = s.wpos := rfl

@[simp] theorem State.emit_out (b : Byte) (s : State) : (s.emit b).out = s.out ++ [b] := rfl

@[simp] theorem State.emit_total (b : Byte) (s : State) : (s.emit b).total = s.total := rfl

@[simp] theorem State.emit_err (b : Byte) (s : State) : (s.emit b).err = s.err := rfl

@[simp] theorem State.emit_snap (b : Byte) (s : State) : (s.emit b).snap = s.snap := rfl

@[simp] theorem State.emit_hdr (b : Byte) (s : State) : (s.emit b).hdr = s.hdr := rfl

@[simp] theorem State.emit_mlen (b : Byte) (s : State) : (s.emit b).mlen = s.mlen := rfl

@[simp] theorem State.emit_phase (b : Byte) (s : State) : (s.emit b).phase = s.phase := rfl

@[simp] theorem State.emit_calls (b : Byte) (s : State) : (s.emit b).calls = s.calls := rfl

@[simp] theorem State.emit_results (b : Byte) (s : State) : (s.emit b).results = s.results := rfl

@[simp] theorem State.emit_opRes (b : Byte) (s : State) : (s.emit b).opRes = s.opRes := rfl

@[simp] theorem State.emit_cfg (b : Byte) (s : State) : (s.emit b).cfg = s.cfg := rfl

/-! ### produce (42_window.md R140, R146) -/

@[simp] theorem State.produce_rd (b : Byte) (s : State) : (s.produce b).rd = s.rd := rfl

@[simp] theorem State.produce_fsm (b : Byte) (s : State) : (s.produce b).fsm = s.fsm := rfl

@[simp] theorem State.produce_bfinal (b : Byte) (s : State) : (s.produce b).bfinal = s.bfinal := rfl

@[simp] theorem State.produce_rem (b : Byte) (s : State) : (s.produce b).rem = s.rem := rfl

@[simp] theorem State.produce_kind (b : Byte) (s : State) : (s.produce b).kind = s.kind := rfl

@[simp] theorem State.produce_llLen (b : Byte) (s : State) : (s.produce b).llLen = s.llLen := rfl

@[simp] theorem State.produce_distLen (b : Byte) (s : State) : (s.produce b).distLen = s.distLen := rfl

@[simp] theorem State.produce_win (b : Byte) (s : State) : (s.produce b).win = s.win.write s.wpos b := rfl

@[simp] theorem State.produce_wpos (b : Byte) (s : State) : (s.produce b).wpos = s.wpos + 1 := rfl

@[simp] theorem State.produce_out (b : Byte) (s : State) : (s.produce b).out = s.out := rfl

@[simp] theorem State.produce_total (b : Byte) (s : State) : (s.produce b).total = s.total + 1 := rfl

@[simp] theorem State.produce_err (b : Byte) (s : State) : (s.produce b).err = s.err := rfl

@[simp] theorem State.produce_snap (b : Byte) (s : State) : (s.produce b).snap = s.snap := rfl

@[simp] theorem State.produce_hdr (b : Byte) (s : State) : (s.produce b).hdr = s.hdr := rfl

@[simp] theorem State.produce_mlen (b : Byte) (s : State) : (s.produce b).mlen = s.mlen := rfl

@[simp] theorem State.produce_phase (b : Byte) (s : State) : (s.produce b).phase = s.phase := rfl

@[simp] theorem State.produce_calls (b : Byte) (s : State) : (s.produce b).calls = s.calls := rfl

@[simp] theorem State.produce_results (b : Byte) (s : State) : (s.produce b).results = s.results := rfl

@[simp] theorem State.produce_opRes (b : Byte) (s : State) : (s.produce b).opRes = s.opRes := rfl

@[simp] theorem State.produce_cfg (b : Byte) (s : State) : (s.produce b).cfg = s.cfg := rfl

/-! ### append (42_window.md R140) -/

@[simp] theorem State.append_rd (b : Byte) (s : State) : (s.append b).rd = s.rd := rfl

@[simp] theorem State.append_fsm (b : Byte) (s : State) : (s.append b).fsm = s.fsm := rfl

@[simp] theorem State.append_bfinal (b : Byte) (s : State) : (s.append b).bfinal = s.bfinal := rfl

@[simp] theorem State.append_rem (b : Byte) (s : State) : (s.append b).rem = s.rem := rfl

@[simp] theorem State.append_kind (b : Byte) (s : State) : (s.append b).kind = s.kind := rfl

@[simp] theorem State.append_llLen (b : Byte) (s : State) : (s.append b).llLen = s.llLen := rfl

@[simp] theorem State.append_distLen (b : Byte) (s : State) : (s.append b).distLen = s.distLen := rfl

@[simp] theorem State.append_win (b : Byte) (s : State) : (s.append b).win = s.win.write s.wpos b := rfl

@[simp] theorem State.append_wpos (b : Byte) (s : State) : (s.append b).wpos = s.wpos + 1 := rfl

@[simp] theorem State.append_out (b : Byte) (s : State) : (s.append b).out = s.out ++ [b] := rfl

@[simp] theorem State.append_total (b : Byte) (s : State) : (s.append b).total = s.total + 1 := rfl

@[simp] theorem State.append_err (b : Byte) (s : State) : (s.append b).err = s.err := rfl

@[simp] theorem State.append_snap (b : Byte) (s : State) : (s.append b).snap = s.snap := rfl

@[simp] theorem State.append_hdr (b : Byte) (s : State) : (s.append b).hdr = s.hdr := rfl

@[simp] theorem State.append_mlen (b : Byte) (s : State) : (s.append b).mlen = s.mlen := rfl

@[simp] theorem State.append_phase (b : Byte) (s : State) : (s.append b).phase = s.phase := rfl

@[simp] theorem State.append_calls (b : Byte) (s : State) : (s.append b).calls = s.calls := rfl

@[simp] theorem State.append_results (b : Byte) (s : State) : (s.append b).results = s.results := rfl

@[simp] theorem State.append_opRes (b : Byte) (s : State) : (s.append b).opRes = s.opRes := rfl

@[simp] theorem State.append_cfg (b : Byte) (s : State) : (s.append b).cfg = s.cfg := rfl

/-! ### beginCall (44_fsm_host.md R195) -/

@[simp] theorem State.beginCall_rd (s : State) : (s.beginCall).rd = s.rd := rfl

@[simp] theorem State.beginCall_fsm (s : State) : (s.beginCall).fsm = s.fsm := rfl

@[simp] theorem State.beginCall_bfinal (s : State) : (s.beginCall).bfinal = s.bfinal := rfl

@[simp] theorem State.beginCall_rem (s : State) : (s.beginCall).rem = s.rem := rfl

@[simp] theorem State.beginCall_kind (s : State) : (s.beginCall).kind = s.kind := rfl

@[simp] theorem State.beginCall_llLen (s : State) : (s.beginCall).llLen = s.llLen := rfl

@[simp] theorem State.beginCall_distLen (s : State) : (s.beginCall).distLen = s.distLen := rfl

@[simp] theorem State.beginCall_win (s : State) : (s.beginCall).win = s.win := rfl

@[simp] theorem State.beginCall_wpos (s : State) : (s.beginCall).wpos = s.wpos := rfl

@[simp] theorem State.beginCall_out (s : State) : (s.beginCall).out = [] := rfl

@[simp] theorem State.beginCall_total (s : State) : (s.beginCall).total = s.total := rfl

@[simp] theorem State.beginCall_err (s : State) : (s.beginCall).err = s.err := rfl

@[simp] theorem State.beginCall_snap (s : State) : (s.beginCall).snap = s.snap := rfl

@[simp] theorem State.beginCall_hdr (s : State) : (s.beginCall).hdr = s.hdr := rfl

@[simp] theorem State.beginCall_mlen (s : State) : (s.beginCall).mlen = s.mlen := rfl

@[simp] theorem State.beginCall_phase (s : State) : (s.beginCall).phase = .between := rfl

@[simp] theorem State.beginCall_calls (s : State) : (s.beginCall).calls = s.calls := rfl

@[simp] theorem State.beginCall_results (s : State) : (s.beginCall).results = s.results := rfl

@[simp] theorem State.beginCall_opRes (s : State) : (s.beginCall).opRes = s.opRes := rfl

@[simp] theorem State.beginCall_cfg (s : State) : (s.beginCall).cfg = s.cfg := rfl

/-! ### blockEnd (43_block_decoder.md R154, R169) -/

@[simp] theorem State.blockEnd_rd (s : State) : (s.blockEnd).rd = s.rd := rfl

@[simp] theorem State.blockEnd_fsm (s : State) : (s.blockEnd).fsm = if s.bfinal then .done else .hdr := rfl

@[simp] theorem State.blockEnd_bfinal (s : State) : (s.blockEnd).bfinal = s.bfinal := rfl

@[simp] theorem State.blockEnd_rem (s : State) : (s.blockEnd).rem = s.rem := rfl

@[simp] theorem State.blockEnd_kind (s : State) : (s.blockEnd).kind = s.kind := rfl

@[simp] theorem State.blockEnd_llLen (s : State) : (s.blockEnd).llLen = s.llLen := rfl

@[simp] theorem State.blockEnd_distLen (s : State) : (s.blockEnd).distLen = s.distLen := rfl

@[simp] theorem State.blockEnd_win (s : State) : (s.blockEnd).win = s.win := rfl

@[simp] theorem State.blockEnd_wpos (s : State) : (s.blockEnd).wpos = s.wpos := rfl

@[simp] theorem State.blockEnd_out (s : State) : (s.blockEnd).out = s.out := rfl

@[simp] theorem State.blockEnd_total (s : State) : (s.blockEnd).total = s.total := rfl

@[simp] theorem State.blockEnd_err (s : State) : (s.blockEnd).err = s.err := rfl

@[simp] theorem State.blockEnd_snap (s : State) : (s.blockEnd).snap = s.snap := rfl

@[simp] theorem State.blockEnd_hdr (s : State) : (s.blockEnd).hdr = s.hdr := rfl

@[simp] theorem State.blockEnd_mlen (s : State) : (s.blockEnd).mlen = s.mlen := rfl

@[simp] theorem State.blockEnd_phase (s : State) : (s.blockEnd).phase = s.phase := rfl

@[simp] theorem State.blockEnd_calls (s : State) : (s.blockEnd).calls = s.calls := rfl

@[simp] theorem State.blockEnd_results (s : State) : (s.blockEnd).results = s.results := rfl

@[simp] theorem State.blockEnd_opRes (s : State) : (s.blockEnd).opRes = s.opRes := rfl

@[simp] theorem State.blockEnd_cfg (s : State) : (s.blockEnd).cfg = s.cfg := rfl

/-! ### inUnit (44_fsm_host.md R192) -/

@[simp] theorem State.inUnit_rd (p : Phase) (s : State) : (s.inUnit p).rd = s.rd := rfl

@[simp] theorem State.inUnit_fsm (p : Phase) (s : State) : (s.inUnit p).fsm = s.fsm := rfl

@[simp] theorem State.inUnit_bfinal (p : Phase) (s : State) : (s.inUnit p).bfinal = s.bfinal := rfl

@[simp] theorem State.inUnit_rem (p : Phase) (s : State) : (s.inUnit p).rem = s.rem := rfl

@[simp] theorem State.inUnit_kind (p : Phase) (s : State) : (s.inUnit p).kind = s.kind := rfl

@[simp] theorem State.inUnit_llLen (p : Phase) (s : State) : (s.inUnit p).llLen = s.llLen := rfl

@[simp] theorem State.inUnit_distLen (p : Phase) (s : State) : (s.inUnit p).distLen = s.distLen := rfl

@[simp] theorem State.inUnit_win (p : Phase) (s : State) : (s.inUnit p).win = s.win := rfl

@[simp] theorem State.inUnit_wpos (p : Phase) (s : State) : (s.inUnit p).wpos = s.wpos := rfl

@[simp] theorem State.inUnit_out (p : Phase) (s : State) : (s.inUnit p).out = s.out := rfl

@[simp] theorem State.inUnit_total (p : Phase) (s : State) : (s.inUnit p).total = s.total := rfl

@[simp] theorem State.inUnit_err (p : Phase) (s : State) : (s.inUnit p).err = s.err := rfl

@[simp] theorem State.inUnit_snap (p : Phase) (s : State) : (s.inUnit p).snap = some s.capture := rfl

@[simp] theorem State.inUnit_hdr (p : Phase) (s : State) : (s.inUnit p).hdr = s.hdr := rfl

@[simp] theorem State.inUnit_mlen (p : Phase) (s : State) : (s.inUnit p).mlen = s.mlen := rfl

@[simp] theorem State.inUnit_phase (p : Phase) (s : State) : (s.inUnit p).phase = p := rfl

@[simp] theorem State.inUnit_calls (p : Phase) (s : State) : (s.inUnit p).calls = s.calls := rfl

@[simp] theorem State.inUnit_results (p : Phase) (s : State) : (s.inUnit p).results = s.results := rfl

@[simp] theorem State.inUnit_opRes (p : Phase) (s : State) : (s.inUnit p).opRes = s.opRes := rfl

@[simp] theorem State.inUnit_cfg (p : Phase) (s : State) : (s.inUnit p).cfg = s.cfg := rfl

/-! ### enterUnit (44_fsm_host.md R192) -/

@[simp] theorem State.enterUnit_rd (s : State) : (s.enterUnit).rd = s.rd := by
  unfold State.enterUnit; split <;> rfl

@[simp] theorem State.enterUnit_fsm (s : State) : (s.enterUnit).fsm = s.fsm := by
  unfold State.enterUnit; split <;> rfl

@[simp] theorem State.enterUnit_bfinal (s : State) : (s.enterUnit).bfinal = s.bfinal := by
  unfold State.enterUnit; split <;> rfl

@[simp] theorem State.enterUnit_rem (s : State) : (s.enterUnit).rem = s.rem := by
  unfold State.enterUnit; split <;> rfl

@[simp] theorem State.enterUnit_kind (s : State) : (s.enterUnit).kind = s.kind := by
  unfold State.enterUnit; split <;> rfl

@[simp] theorem State.enterUnit_llLen (s : State) : (s.enterUnit).llLen = s.llLen := by
  unfold State.enterUnit; split <;> rfl

@[simp] theorem State.enterUnit_distLen (s : State) : (s.enterUnit).distLen = s.distLen := by
  unfold State.enterUnit; split <;> rfl

@[simp] theorem State.enterUnit_win (s : State) : (s.enterUnit).win = s.win := by
  unfold State.enterUnit; split <;> rfl

@[simp] theorem State.enterUnit_wpos (s : State) : (s.enterUnit).wpos = s.wpos := by
  unfold State.enterUnit; split <;> rfl

@[simp] theorem State.enterUnit_out (s : State) : (s.enterUnit).out = s.out := by
  unfold State.enterUnit; split <;> rfl

@[simp] theorem State.enterUnit_total (s : State) : (s.enterUnit).total = s.total := by
  unfold State.enterUnit; split <;> rfl

@[simp] theorem State.enterUnit_err (s : State) : (s.enterUnit).err = s.err := by
  unfold State.enterUnit; split <;> rfl

@[simp] theorem State.enterUnit_snap (s : State) : (s.enterUnit).snap = if s.phase = .between then some s.capture else s.snap := by
  unfold State.enterUnit; split <;> rfl

@[simp] theorem State.enterUnit_hdr (s : State) : (s.enterUnit).hdr = s.hdr := by
  unfold State.enterUnit; split <;> rfl

@[simp] theorem State.enterUnit_mlen (s : State) : (s.enterUnit).mlen = s.mlen := by
  unfold State.enterUnit; split <;> rfl

@[simp] theorem State.enterUnit_phase (s : State) : (s.enterUnit).phase = s.phase := by
  unfold State.enterUnit; split <;> rfl

@[simp] theorem State.enterUnit_calls (s : State) : (s.enterUnit).calls = s.calls := by
  unfold State.enterUnit; split <;> rfl

@[simp] theorem State.enterUnit_results (s : State) : (s.enterUnit).results = s.results := by
  unfold State.enterUnit; split <;> rfl

@[simp] theorem State.enterUnit_opRes (s : State) : (s.enterUnit).opRes = s.opRes := by
  unfold State.enterUnit; split <;> rfl

@[simp] theorem State.enterUnit_cfg (s : State) : (s.enterUnit).cfg = s.cfg := by
  unfold State.enterUnit; split <;> rfl

/-! ### endCall (10_state.md R33, R38) -/

@[simp] theorem State.endCall_rd (r : HostResult) (s : State) : (s.endCall r).rd = s.rd := by
  unfold State.endCall; split <;> rfl

@[simp] theorem State.endCall_fsm (r : HostResult) (s : State) : (s.endCall r).fsm = s.fsm := by
  unfold State.endCall; split <;> rfl

@[simp] theorem State.endCall_bfinal (r : HostResult) (s : State) : (s.endCall r).bfinal = s.bfinal := by
  unfold State.endCall; split <;> rfl

@[simp] theorem State.endCall_rem (r : HostResult) (s : State) : (s.endCall r).rem = s.rem := by
  unfold State.endCall; split <;> rfl

@[simp] theorem State.endCall_kind (r : HostResult) (s : State) : (s.endCall r).kind = s.kind := by
  unfold State.endCall; split <;> rfl

@[simp] theorem State.endCall_llLen (r : HostResult) (s : State) : (s.endCall r).llLen = s.llLen := by
  unfold State.endCall; split <;> rfl

@[simp] theorem State.endCall_distLen (r : HostResult) (s : State) : (s.endCall r).distLen = s.distLen := by
  unfold State.endCall; split <;> rfl

@[simp] theorem State.endCall_win (r : HostResult) (s : State) : (s.endCall r).win = s.win := by
  unfold State.endCall; split <;> rfl

@[simp] theorem State.endCall_wpos (r : HostResult) (s : State) : (s.endCall r).wpos = s.wpos := by
  unfold State.endCall; split <;> rfl

@[simp] theorem State.endCall_out (r : HostResult) (s : State) : (s.endCall r).out = [] := by
  unfold State.endCall; split <;> simp_all

@[simp] theorem State.endCall_total (r : HostResult) (s : State) : (s.endCall r).total = s.total := by
  unfold State.endCall; split <;> rfl

@[simp] theorem State.endCall_err (r : HostResult) (s : State) : (s.endCall r).err = s.err := by
  unfold State.endCall; split <;> rfl

@[simp] theorem State.endCall_snap (r : HostResult) (s : State) : (s.endCall r).snap = if s.phase = .idle then s.snap else none := by
  unfold State.endCall; split <;> simp_all

@[simp] theorem State.endCall_hdr (r : HostResult) (s : State) : (s.endCall r).hdr = if s.phase = .idle then s.hdr else DynHeader.blank := by
  unfold State.endCall; split <;> simp_all

@[simp] theorem State.endCall_mlen (r : HostResult) (s : State) : (s.endCall r).mlen = if s.phase = .idle then s.mlen else 0 := by
  unfold State.endCall; split <;> simp_all

@[simp] theorem State.endCall_phase (r : HostResult) (s : State) : (s.endCall r).phase = .idle := by
  unfold State.endCall; split <;> simp_all

@[simp] theorem State.endCall_calls (r : HostResult) (s : State) : (s.endCall r).calls = s.calls := by
  unfold State.endCall; split <;> rfl

@[simp] theorem State.endCall_results (r : HostResult) (s : State) : (s.endCall r).results = if s.phase = .idle then s.results else s.results ++ [r] := by
  unfold State.endCall; split <;> simp_all

@[simp] theorem State.endCall_opRes (r : HostResult) (s : State) : (s.endCall r).opRes = s.opRes := by
  unfold State.endCall; split <;> rfl

@[simp] theorem State.endCall_cfg (r : HostResult) (s : State) : (s.endCall r).cfg = s.cfg := by
  unfold State.endCall; split <;> rfl

/-! ### raise (60_exceptions.md R225, R230) -/

@[simp] theorem State.raise_rd (c : Cause) (s : State) : (s.raise c).rd = s.rd := by
  unfold State.raise; split <;> simp_all

@[simp] theorem State.raise_fsm (c : Cause) (s : State) : (s.raise c).fsm = .failed := by
  unfold State.raise; split <;> simp_all

@[simp] theorem State.raise_bfinal (c : Cause) (s : State) : (s.raise c).bfinal = s.bfinal := by
  unfold State.raise; split <;> simp_all

@[simp] theorem State.raise_rem (c : Cause) (s : State) : (s.raise c).rem = s.rem := by
  unfold State.raise; split <;> simp_all

@[simp] theorem State.raise_kind (c : Cause) (s : State) : (s.raise c).kind = s.kind := by
  unfold State.raise; split <;> simp_all

@[simp] theorem State.raise_llLen (c : Cause) (s : State) : (s.raise c).llLen = s.llLen := by
  unfold State.raise; split <;> simp_all

@[simp] theorem State.raise_distLen (c : Cause) (s : State) : (s.raise c).distLen = s.distLen := by
  unfold State.raise; split <;> simp_all

@[simp] theorem State.raise_win (c : Cause) (s : State) : (s.raise c).win = s.win := by
  unfold State.raise; split <;> simp_all

@[simp] theorem State.raise_wpos (c : Cause) (s : State) : (s.raise c).wpos = s.wpos := by
  unfold State.raise; split <;> simp_all

@[simp] theorem State.raise_out (c : Cause) (s : State) : (s.raise c).out = [] := by
  unfold State.raise; split <;> simp_all

@[simp] theorem State.raise_total (c : Cause) (s : State) : (s.raise c).total = s.total := by
  unfold State.raise; split <;> simp_all

@[simp] theorem State.raise_err (c : Cause) (s : State) : (s.raise c).err = if s.fsm = .failed then s.err else some c := by
  unfold State.raise; split <;> simp_all

@[simp] theorem State.raise_snap (c : Cause) (s : State) : (s.raise c).snap = if s.phase = .idle then s.snap else none := by
  unfold State.raise; split <;> simp_all

@[simp] theorem State.raise_hdr (c : Cause) (s : State) : (s.raise c).hdr = if s.phase = .idle then s.hdr else DynHeader.blank := by
  unfold State.raise; split <;> simp_all

@[simp] theorem State.raise_mlen (c : Cause) (s : State) : (s.raise c).mlen = if s.phase = .idle then s.mlen else 0 := by
  unfold State.raise; split <;> simp_all

@[simp] theorem State.raise_phase (c : Cause) (s : State) : (s.raise c).phase = .idle := by
  unfold State.raise; split <;> simp_all

@[simp] theorem State.raise_calls (c : Cause) (s : State) : (s.raise c).calls = s.calls := by
  unfold State.raise; split <;> simp_all

@[simp] theorem State.raise_results (c : Cause) (s : State) : (s.raise c).results = if s.phase = .idle then s.results else s.results ++ [.badData c] := by
  unfold State.raise; split <;> simp_all

@[simp] theorem State.raise_opRes (c : Cause) (s : State) : (s.raise c).opRes = s.opRes := by
  unfold State.raise; split <;> simp_all

@[simp] theorem State.raise_cfg (c : Cause) (s : State) : (s.raise c).cfg = s.cfg := by
  unfold State.raise; split <;> simp_all

/-! ### rollback (44_fsm_host.md R192) -/

theorem State.rollback_rd (s : State) (k : Snapshot) (h : s.snap = some k) : s.rollback.rd = k.rd := by
  simp [State.rollback, h]

theorem State.rollback_fsm (s : State) (k : Snapshot) (h : s.snap = some k) : s.rollback.fsm = k.fsm := by
  simp [State.rollback, h]

theorem State.rollback_bfinal (s : State) (k : Snapshot) (h : s.snap = some k) : s.rollback.bfinal = k.bfinal := by
  simp [State.rollback, h]

theorem State.rollback_rem (s : State) (k : Snapshot) (h : s.snap = some k) : s.rollback.rem = k.rem := by
  simp [State.rollback, h]

theorem State.rollback_kind (s : State) (k : Snapshot) (h : s.snap = some k) : s.rollback.kind = k.kind := by
  simp [State.rollback, h]

theorem State.rollback_llLen (s : State) (k : Snapshot) (h : s.snap = some k) : s.rollback.llLen = k.llLen := by
  simp [State.rollback, h]

theorem State.rollback_distLen (s : State) (k : Snapshot) (h : s.snap = some k) : s.rollback.distLen = k.distLen := by
  simp [State.rollback, h]

theorem State.rollback_wpos (s : State) (k : Snapshot) (h : s.snap = some k) : s.rollback.wpos = k.wpos := by
  simp [State.rollback, h]

theorem State.rollback_out (s : State) (k : Snapshot) (h : s.snap = some k) : s.rollback.out = s.out.take k.outLen := by
  simp [State.rollback, h]

theorem State.rollback_total (s : State) (k : Snapshot) (h : s.snap = some k) : s.rollback.total = k.total := by
  simp [State.rollback, h]

@[simp] theorem State.rollback_win (s : State) : s.rollback.win = s.win := by
  unfold State.rollback; split <;> rfl

@[simp] theorem State.rollback_err (s : State) : s.rollback.err = s.err := by
  unfold State.rollback; split <;> rfl

@[simp] theorem State.rollback_snap (s : State) : s.rollback.snap = s.snap := by
  unfold State.rollback; split <;> rfl

@[simp] theorem State.rollback_hdr (s : State) : s.rollback.hdr = s.hdr := by
  unfold State.rollback; split <;> rfl

@[simp] theorem State.rollback_mlen (s : State) : s.rollback.mlen = s.mlen := by
  unfold State.rollback; split <;> rfl

@[simp] theorem State.rollback_phase (s : State) : s.rollback.phase = s.phase := by
  unfold State.rollback; split <;> rfl

@[simp] theorem State.rollback_calls (s : State) : s.rollback.calls = s.calls := by
  unfold State.rollback; split <;> rfl

@[simp] theorem State.rollback_results (s : State) : s.rollback.results = s.results := by
  unfold State.rollback; split <;> rfl

@[simp] theorem State.rollback_opRes (s : State) : s.rollback.opRes = s.opRes := by
  unfold State.rollback; split <;> rfl

@[simp] theorem State.rollback_cfg (s : State) : s.rollback.cfg = s.cfg := by
  unfold State.rollback; split <;> rfl

end Sys2Proof.Machine
end

