-- ==== Sys2Proof/Laws/Memory.lean ====
section
/-! SUPPORT. The window memory's laws: what a read gives after a write, that writing keeps the canonical form, and that
two canonical memories with the same bytes are the same data. -/

namespace Sys2Proof.Machine

theorem Memory.wfFrom_mono {m : Memory} {b c : Nat} (hcb : c ≤ b) (h : m.wfFrom b = true) : m.wfFrom c = true := by
  cases m with
  | nil => rfl
  | cons x m =>
    simp only [Memory.wfFrom, Bool.and_eq_true, decide_eq_true_eq] at h ⊢
    exact ⟨⟨by omega, h.1.2⟩, h.2⟩

/-- An address below the least one listed has no value. -/
theorem Memory.get_none_of_lt {m : Memory} {b a : Nat} (h : m.wfFrom b = true) (hab : a < b) : m.get a = none := by
  induction m generalizing b with
  | nil => rfl
  | cons x m ih =>
    simp only [Memory.wfFrom, Bool.and_eq_true, decide_eq_true_eq] at h
    rw [Memory.get, if_neg (by omega)]
    exact ih h.2 (by omega)

/-- A read after a write to the same address gives the value written. -/
@[simp] theorem Memory.get_set_same (m : Memory) (a : Nat) (v : Byte) : (m.set a v).get a = some v := by
  induction m with
  | nil => simp [Memory.set, Memory.get]
  | cons x m ih =>
    rw [Memory.set]
    split
    · simp [Memory.get]
    · split
      · simp [Memory.get]
      · rw [Memory.get, if_neg (by omega)]
        exact ih

/-- A write leaves every other address alone. -/
theorem Memory.get_set_other (m : Memory) {a b : Nat} (v : Byte) (h : b ≠ a) : (m.set a v).get b = m.get b := by
  induction m with
  | nil => simp [Memory.set, Memory.get, h.symm]
  | cons x m ih =>
    rw [Memory.set]
    split
    · rw [Memory.get, if_neg h.symm]
    · split
      · rw [Memory.get, Memory.get, if_neg h.symm, if_neg (by omega)]
      · rw [Memory.get, Memory.get, ih]

theorem Memory.set_wfFrom {m : Memory} {b a : Nat} (v : Byte) (h : m.wfFrom b = true) (hb : b ≤ a)
    (ha : a < Config.windowSize) : (m.set a v).wfFrom b = true := by
  induction m generalizing b with
  | nil => simp [Memory.set, Memory.wfFrom, hb, ha]
  | cons x m ih =>
    simp only [Memory.wfFrom, Bool.and_eq_true, decide_eq_true_eq] at h
    rw [Memory.set]
    split
    · simp only [Memory.wfFrom, Bool.and_eq_true, decide_eq_true_eq]
      exact ⟨⟨hb, ha⟩, ⟨by omega, h.1.2⟩, h.2⟩
    · split
      · next hax =>
        simp only [Memory.wfFrom, Bool.and_eq_true, decide_eq_true_eq]
        exact ⟨⟨hb, ha⟩, hax ▸ h.2⟩
      · simp only [Memory.wfFrom, Bool.and_eq_true, decide_eq_true_eq]
        exact ⟨h.1, ih h.2 (by omega)⟩

/-- A write keeps the canonical form (20_memory.md R57, R58). -/
theorem Memory.write_wf {m : Memory} (a : BitVec 16) (v : Byte) (h : m.wf = true) : (m.write a v).wf = true :=
  Memory.set_wfFrom v h (Nat.zero_le _) (by rw [Config.windowSize]; exact a.isLt)

/-- MemRead after MemWrite at the same address (20_memory.md R58). -/
@[simp] theorem Memory.read_write_same (m : Memory) (a : BitVec 16) (v : Byte) : (m.write a v).read a = some v :=
  Memory.get_set_same m a.toNat v

/-- MemRead after MemWrite at another address (20_memory.md R58). -/
theorem Memory.read_write_other (m : Memory) {a b : BitVec 16} (v : Byte) (h : b ≠ a) :
    (m.write a v).read b = m.read b :=
  Memory.get_set_other m v fun e => h (BitVec.eq_of_toNat_eq e)

/-- MemRead after MemWrite. -/
theorem Memory.read_write (m : Memory) (a b : BitVec 16) (v : Byte) :
    (m.write a v).read b = if b = a then some v else m.read b := by
  split
  · next h => subst h; exact Memory.read_write_same m b v
  · next h => exact Memory.read_write_other m v h

theorem Memory.wfFrom_ext {m n : Memory} {b : Nat} (hm : m.wfFrom b = true) (hn : n.wfFrom b = true)
    (h : ∀ a, m.get a = n.get a) : m = n := by
  induction m generalizing n b with
  | nil =>
    cases n with
    | nil => rfl
    | cons y n => simpa [Memory.get] using h y.1
  | cons x m ih =>
    cases n with
    | nil => simpa [Memory.get] using h x.1
    | cons y n =>
      simp only [Memory.wfFrom, Bool.and_eq_true, decide_eq_true_eq] at hm hn
      have key : x.1 = y.1 := by
        rcases Nat.lt_trichotomy x.1 y.1 with hlt | heq | hgt
        · have hx := h x.1
          rw [Memory.get, if_pos rfl, Memory.get, if_neg (by omega),
            Memory.get_none_of_lt hn.2 (by omega)] at hx
          cases hx
        · exact heq
        · have hy := h y.1
          rw [Memory.get, if_neg (by omega), Memory.get_none_of_lt hm.2 (by omega), Memory.get, if_pos rfl] at hy
          cases hy
      have hv := h x.1
      rw [Memory.get, if_pos rfl, Memory.get, if_pos key.symm] at hv
      have hxy : x = y := Prod.ext key (Option.some.inj hv)
      subst hxy
      congr 1
      refine ih hm.2 hn.2 fun a => ?_
      by_cases ha : x.1 = a
      · rw [Memory.get_none_of_lt hm.2 (by omega), Memory.get_none_of_lt hn.2 (by omega)]
      · simpa [Memory.get, ha] using h a

/-- The form is canonical: memories in it that hold the same bytes are the same list. -/
theorem Memory.ext_of_get {m n : Memory} (hm : m.wf = true) (hn : n.wf = true) (h : ∀ a, m.get a = n.get a) : m = n :=
  Memory.wfFrom_ext hm hn h

/-- The window after RESET is canonical. -/
theorem Memory.reset_wf : State.reset.win.wf = true := rfl

/-- Producing a byte keeps the window canonical. -/
theorem State.append_win_wf {s : State} (b : Byte) (h : s.win.wf = true) : (s.append b).win.wf = true := by
  simpa using Memory.write_wf s.wpos b h

end Sys2Proof.Machine
end

