-- ==== Sys2Proof/Laws/Ops.lean ====
section
/-! SUPPORT. One spec lemma per shared operation: everything ending a call, raising, suspending, appending and copying can
do. -/

namespace Sys2Proof.Machine

/-! ### Ending a call, raising, suspending -/

/-- Ending a call that runs. -/
theorem State.endCall_running {s : State} (r : HostResult) (h : s.phase ≠ .idle) :
    s.endCall r = { s with
      phase := .idle, snap := none, hdr := DynHeader.blank, mlen := 0, out := [], results := s.results ++ [r] } := by
  rw [State.endCall, if_neg h]

/-- With no call running only the output is cleared. -/
theorem State.endCall_idle {s : State} (r : HostResult) (h : s.phase = .idle) :
    s.endCall r = { s with out := [] } := by
  rw [State.endCall, if_pos h]

/-- `raise` has the effect 60_exceptions.md R225 gives it. -/
theorem State.raise_effect (c : Cause) (s : State) : RaiseEffect c s (s.raise c) := by
  refine ⟨by simp, by simp, by simp, by simp, by simp, ?_⟩
  unfold State.raise State.endCall
  by_cases hf : s.fsm = .failed <;> by_cases hp : s.phase = .idle <;> simp [hf, hp]

/-- With no call running `suspend` changes nothing. -/
theorem State.suspend_idle {s : State} (h : s.phase = .idle) : s.suspend = s := by
  rw [State.suspend, if_pos h]

/-- `suspend` in a call, with a unit's rollback point held (44_fsm_host.md R192): the point's elements take their
recorded values, the transient ones are gone, and the call ends with the output of its committed units. -/
theorem State.suspend_running {s : State} {k : Snapshot} (h : s.phase ≠ .idle) (hk : s.snap = some k) :
    s.suspend = { s with
      rd := k.rd, fsm := k.fsm, bfinal := k.bfinal, rem := k.rem, kind := k.kind, llLen := k.llLen, distLen := k.distLen,
      wpos := k.wpos, total := k.total, phase := .idle, snap := none, hdr := DynHeader.blank, mlen := 0, out := [],
      results := s.results ++ [.ok (s.out.take k.outLen)] } := by
  simp [State.suspend, State.rollback, State.endCall, h, hk]

/-- The ways TRAILING ends a call (44_fsm_host.md R203). -/
theorem State.finish_cases (bytes : List Byte) (s : State) :
    ((bytes = [] ∨ s.cfg.trailing = .ignore) ∧ s.finish bytes = s.endCall (.ok s.out)) ∨
      (bytes ≠ [] ∧ s.cfg.trailing = .error ∧ s.finish bytes = s.raise .trailingData) := by
  unfold State.finish
  split
  · next h => exact .inl ⟨.inl h, rfl⟩
  · next h =>
    split
    · next hp => exact .inr ⟨h, hp, rfl⟩
    · next hp => exact .inl ⟨.inr hp, rfl⟩

/-- The output stream of results in call order is the earlier ones' followed by the later ones' (20_memory.md R56). -/
@[simp] theorem outputStream_append (rs qs : List HostResult) :
    outputStream (rs ++ qs) = outputStream rs ++ outputStream qs := by
  induction rs with
  | nil => rfl
  | cons r rs ih => cases r <;> simp [outputStream, ih]

/-! ### The window -/

/-- APPEND has the effect 42_window.md R140 gives it. -/
theorem State.append_effect (b : Byte) (s : State) : AppendEffect b s (s.append b) :=
  ⟨by simp, fun a h => by simpa using Memory.read_write_other s.win b h, by simp, by simp, by simp⟩

/-- Appending a byte keeps the window's side of a legal state (10_state.md R41 item 2, 20_memory.md R69). -/
theorem WindowOk.append {s : State} (b : Byte) (h : WindowOk s) : WindowOk (s.append b) := by
  obtain ⟨hpos, hwf, hall⟩ := h
  refine ⟨?_, State.append_win_wf b hwf, fun a ha => ?_⟩
  · rw [State.append_wpos, State.append_total, hpos, BitVec.ofNat_add]
    rfl
  · rw [State.append_total] at ha
    rw [State.append_win, Memory.write]
    by_cases ha' : a = s.wpos.toNat
    · rw [ha', Memory.get_set_same]; rfl
    · rw [Memory.get_set_other _ _ ha']
      rw [hpos, BitVec.toNat_ofNat] at ha'
      simp only [Config.windowSize] at ha hall
      exact hall a (by omega)

theorem add_one_add_ofNat (x : BitVec 16) (i : Nat) : x + 1 + BitVec.ofNat 16 i = x + BitVec.ofNat 16 (i + 1) := by
  apply BitVec.eq_of_toNat_eq
  simp
  omega

/-- A copy changes the window, its cursor, the output and the counter, and no other element. -/
theorem copyBytes_frame {d l : Nat} {s t : State} (h : copyBytes d l s = some t) :
    t = { s with win := t.win, wpos := t.wpos, out := t.out, total := t.total } := by
  induction l generalizing s with
  | zero => cases h; rfl
  | succ l ih =>
    obtain ⟨b, -, hb⟩ := Option.bind_eq_some_iff.mp h
    have := ih hb
    exact this

/-- A copy of `l` bytes puts `l` bytes out and moves the cursor and the counter by `l`. -/
theorem copyBytes_counts {d l : Nat} {s t : State} (h : copyBytes d l s = some t) :
    t.wpos = s.wpos + BitVec.ofNat 16 l ∧ t.total = s.total + l ∧
      ∃ bytes : List Byte, bytes.length = l ∧ t.out = s.out ++ bytes := by
  induction l generalizing s with
  | zero => cases h; exact ⟨by simp, rfl, [], rfl, by simp⟩
  | succ l ih =>
    obtain ⟨b, -, hb⟩ := Option.bind_eq_some_iff.mp h
    obtain ⟨hw, ht, bytes, hlen, ho⟩ := ih hb
    refine ⟨?_, ?_, b :: bytes, by simp [hlen], by simp [ho]⟩
    · rw [hw, State.append_wpos, add_one_add_ofNat]
    · rw [ht, State.append_total]; omega

/-- A copy leaves every window address outside the `l` it writes alone. -/
theorem copyBytes_read_outside {d l : Nat} {s t : State} (h : copyBytes d l s = some t) {a : BitVec 16}
    (ha : ∀ i, i < l → a ≠ s.wpos + BitVec.ofNat 16 i) : t.win.read a = s.win.read a := by
  induction l generalizing s with
  | zero => cases h; rfl
  | succ l ih =>
    obtain ⟨b, -, hb⟩ := Option.bind_eq_some_iff.mp h
    have h0 : a ≠ s.wpos := by simpa using ha 0 (by omega)
    rw [ih hb fun i hi => ?_, State.append_win, Memory.read_write_other s.win b h0]
    rw [State.append_wpos, add_one_add_ofNat]
    exact ha (i + 1) (by omega)

/-- A copy keeps the window canonical. -/
theorem copyBytes_wf {d l : Nat} {s t : State} (h : copyBytes d l s = some t) (hs : s.win.wf = true) :
    t.win.wf = true := by
  induction l generalizing s with
  | zero => cases h; exact hs
  | succ l ih =>
    obtain ⟨b, -, hb⟩ := Option.bind_eq_some_iff.mp h
    exact ih hb (State.append_win_wf b hs)

/-- The ways COPY_MATCH ends (42_window.md R141, R142): a raise, a copy, or the stop of log entry 1. -/
theorem copyMatchThen_cases (d l : Nat) (andThen : State → State) (s : State) :
    (s.total < d ∧ copyMatchThen d l andThen s = .next (s.raise .distTooFar)) ∨
      (d ≤ s.total ∧ copyBytes d l s = none ∧ copyMatchThen d l andThen s = .fault .windowByteNeverWritten) ∨
      ∃ t, d ≤ s.total ∧ copyBytes d l s = some t ∧ copyMatchThen d l andThen s = .next (andThen t) := by
  by_cases h : s.total < d
  · exact .inl ⟨h, by rw [copyMatchThen, if_pos h]⟩
  · cases hc : copyBytes d l s with
    | none => exact .inr (.inl ⟨by omega, rfl, by rw [copyMatchThen, if_neg h, hc]⟩)
    | some t => exact .inr (.inr ⟨t, by omega, rfl, by rw [copyMatchThen, if_neg h, hc]⟩)

/-! ### The dynamic header -/

/-- The ways DYN_FINISH ends, in the order of its checks (43_block_decoder.md R165, 60_exceptions.md R229). -/
theorem State.dynFinish_cases (s : State) :
    (s.hdr.lens.getD 256 0 = 0 ∧ s.dynFinish = s.raise .missingEob) ∨
      (s.hdr.lens.getD 256 0 ≠ 0 ∧ buildAccepts s.cfg.strict .ll s.hdr.newLL = false ∧
        s.dynFinish = s.raise .litlenTree) ∨
      (s.hdr.lens.getD 256 0 ≠ 0 ∧ buildAccepts s.cfg.strict .ll s.hdr.newLL = true ∧
        buildAccepts s.cfg.strict .d s.hdr.newD = false ∧ s.dynFinish = s.raise .distTree) ∨
      (s.hdr.lens.getD 256 0 ≠ 0 ∧ buildAccepts s.cfg.strict .ll s.hdr.newLL = true ∧
        buildAccepts s.cfg.strict .d s.hdr.newD = true ∧
        s.dynFinish =
          State.commit { s with llLen := s.hdr.newLL, distLen := s.hdr.newD, kind := .dynamic, fsm := .body }) := by
  unfold State.dynFinish
  by_cases h0 : s.hdr.lens.getD 256 0 = 0
  · exact .inl ⟨h0, if_pos h0⟩
  · rw [if_neg h0]
    cases hl : buildAccepts s.cfg.strict .ll s.hdr.newLL with
    | false => exact .inr (.inl ⟨h0, rfl, rfl⟩)
    | true =>
      cases hd : buildAccepts s.cfg.strict .d s.hdr.newD with
      | false => exact .inr (.inr (.inl ⟨h0, rfl, rfl, rfl⟩))
      | true => exact .inr (.inr (.inr ⟨h0, rfl, rfl, rfl⟩))

/-- A run either passes RUN_CHECK or raises (43_block_decoder.md R164). -/
theorem State.pushRun_cases (r : Nat) (v : CodeLen) (s : State) :
    (s.hdr.nlen + s.hdr.ndist < s.hdr.lens.length + r ∧ s.pushRun r v = s.raise .clOverrun) ∨
      (s.hdr.lens.length + r ≤ s.hdr.nlen + s.hdr.ndist ∧ s.pushRun r v = s.pushLens (List.replicate r v)) := by
  unfold State.pushRun
  split
  · next h => exact .inl ⟨h, rfl⟩
  · next h => exact .inr ⟨by omega, rfl⟩

end Sys2Proof.Machine
end

