-- ==== Sys2Proof/Laws/PerInstr.lean ====
section
/-! SUPPORT. The family SymbolRoundTrip: for every instruction, the symbol and extra field the encoder takes from it give
the instruction back (30_encoding.md R84, R86, R92, R93, R99), and the extra field fits its width. One lemma per
constructor. -/

namespace Sys2Proof.Laws.SymbolRoundTrip

/-- The extra field fits its symbol's width, and symbol and field rebuild the instruction, in each coded format. -/
def Statement (i : Instr) : Prop :=
  (∀ p, clSymbol i = some p → p.2 < 2 ^ clExt p.1 ∧ clInstr p.1 p.2 = some i) ∧
    (∀ p, llSymbol i = some p → p.2 < 2 ^ llExt p.1 ∧ llInstr p.1 p.2 = some i) ∧
    ∀ p, dSymbol i = some p → p.2 < 2 ^ dext p.1 ∧ distInstr p.1 p.2 = some i

/-- A field read as a number and put back is the field. -/
theorem ofNat_toNat_self {n : Nat} (x : BitVec n) : BitVec.ofNat n x.toNat = x := by simp

/-- An instruction that no coded format has. -/
theorem of_uncoded {i : Instr} (hc : clSymbol i = none) (hl : llSymbol i = none) (hd : dSymbol i = none) :
    Statement i := by
  simp [Statement, hc, hl, hd]

/-- An element of the CL format. -/
theorem of_cl {i : Instr} {s x : Nat} (hc : clSymbol i = some (s, x)) (hl : llSymbol i = none) (hd : dSymbol i = none)
    (hx : x < 2 ^ clExt s) (hi : clInstr s x = some i) : Statement i := by
  simp [Statement, hc, hl, hd, hx, hi]

/-- An element of the LL format. -/
theorem of_ll {i : Instr} {s x : Nat} (hc : clSymbol i = none) (hl : llSymbol i = some (s, x)) (hd : dSymbol i = none)
    (hx : x < 2 ^ llExt s) (hi : llInstr s x = some i) : Statement i := by
  simp [Statement, hc, hl, hd, hx, hi]

/-- An element of the D format. -/
theorem of_d {i : Instr} {s x : Nat} (hc : clSymbol i = none) (hl : llSymbol i = none) (hd : dSymbol i = some (s, x))
    (hx : x < 2 ^ dext s) (hi : distInstr s x = some i) : Statement i := by
  simp [Statement, hc, hl, hd, hx, hi]

theorem blkStored (bfinal : Bool) : Statement (.blkStored bfinal) :=
  of_uncoded rfl rfl rfl

theorem blkFixed (bfinal : Bool) : Statement (.blkFixed bfinal) :=
  of_uncoded rfl rfl rfl

theorem blkDynamic (bfinal : Bool) : Statement (.blkDynamic bfinal) :=
  of_uncoded rfl rfl rfl

theorem blkReserved (bfinal : Bool) : Statement (.blkReserved bfinal) :=
  of_uncoded rfl rfl rfl

theorem storedHdr (len nlen : BitVec 16) : Statement (.storedHdr len nlen) :=
  of_uncoded rfl rfl rfl

theorem storedByte (b : Byte) : Statement (.storedByte b) :=
  of_uncoded rfl rfl rfl

theorem storedEnd : Statement .storedEnd :=
  of_uncoded rfl rfl rfl

theorem dynCounts (hlit hdist : BitVec 5) (hclen : BitVec 4) : Statement (.dynCounts hlit hdist hclen) :=
  of_uncoded rfl rfl rfl

theorem clLen (l : BitVec 3) : Statement (.clLen l) :=
  of_uncoded rfl rfl rfl

theorem clSet (v : CodeLen) : Statement (.clSet v) :=
  of_cl rfl rfl rfl (by
    have := v.isLt
    unfold clExt
    split <;> simp) (by
    have := v.isLt
    unfold clInstr
    split <;> first | omega | simp [this])

theorem clRep16 (extra : BitVec 2) : Statement (.clRep16 extra) :=
  of_cl rfl rfl rfl extra.isLt (congrArg (fun x => some (Instr.clRep16 x)) (ofNat_toNat_self extra))

theorem clZero17 (extra : BitVec 3) : Statement (.clZero17 extra) :=
  of_cl rfl rfl rfl extra.isLt (congrArg (fun x => some (Instr.clZero17 x)) (ofNat_toNat_self extra))

theorem clZero18 (extra : BitVec 7) : Statement (.clZero18 extra) :=
  of_cl rfl rfl rfl extra.isLt (congrArg (fun x => some (Instr.clZero18 x)) (ofNat_toNat_self extra))

theorem lit (b : Byte) : Statement (.lit b) :=
  of_ll rfl rfl rfl (by
    have : b.toNat < 257 := by have := b.isLt; omega
    simp [llExt, this]) (by
    have := b.isLt
    simp [llInstr, this])

theorem eob : Statement .eob :=
  of_ll rfl rfl rfl Nat.one_pos rfl

theorem len257 : Statement .len257 :=
  of_ll rfl rfl rfl Nat.one_pos rfl

theorem len258 : Statement .len258 :=
  of_ll rfl rfl rfl Nat.one_pos rfl

theorem len259 : Statement .len259 :=
  of_ll rfl rfl rfl Nat.one_pos rfl

theorem len260 : Statement .len260 :=
  of_ll rfl rfl rfl Nat.one_pos rfl

theorem len261 : Statement .len261 :=
  of_ll rfl rfl rfl Nat.one_pos rfl

theorem len262 : Statement .len262 :=
  of_ll rfl rfl rfl Nat.one_pos rfl

theorem len263 : Statement .len263 :=
  of_ll rfl rfl rfl Nat.one_pos rfl

theorem len264 : Statement .len264 :=
  of_ll rfl rfl rfl Nat.one_pos rfl

theorem len265 (extra : BitVec 1) : Statement (.len265 extra) :=
  of_ll rfl rfl rfl extra.isLt (congrArg (fun x => some (Instr.len265 x)) (ofNat_toNat_self extra))

theorem len266 (extra : BitVec 1) : Statement (.len266 extra) :=
  of_ll rfl rfl rfl extra.isLt (congrArg (fun x => some (Instr.len266 x)) (ofNat_toNat_self extra))

theorem len267 (extra : BitVec 1) : Statement (.len267 extra) :=
  of_ll rfl rfl rfl extra.isLt (congrArg (fun x => some (Instr.len267 x)) (ofNat_toNat_self extra))

theorem len268 (extra : BitVec 1) : Statement (.len268 extra) :=
  of_ll rfl rfl rfl extra.isLt (congrArg (fun x => some (Instr.len268 x)) (ofNat_toNat_self extra))

theorem len269 (extra : BitVec 2) : Statement (.len269 extra) :=
  of_ll rfl rfl rfl extra.isLt (congrArg (fun x => some (Instr.len269 x)) (ofNat_toNat_self extra))

theorem len270 (extra : BitVec 2) : Statement (.len270 extra) :=
  of_ll rfl rfl rfl extra.isLt (congrArg (fun x => some (Instr.len270 x)) (ofNat_toNat_self extra))

theorem len271 (extra : BitVec 2) : Statement (.len271 extra) :=
  of_ll rfl rfl rfl extra.isLt (congrArg (fun x => some (Instr.len271 x)) (ofNat_toNat_self extra))

theorem len272 (extra : BitVec 2) : Statement (.len272 extra) :=
  of_ll rfl rfl rfl extra.isLt (congrArg (fun x => some (Instr.len272 x)) (ofNat_toNat_self extra))

theorem len273 (extra : BitVec 3) : Statement (.len273 extra) :=
  of_ll rfl rfl rfl extra.isLt (congrArg (fun x => some (Instr.len273 x)) (ofNat_toNat_self extra))

theorem len274 (extra : BitVec 3) : Statement (.len274 extra) :=
  of_ll rfl rfl rfl extra.isLt (congrArg (fun x => some (Instr.len274 x)) (ofNat_toNat_self extra))

theorem len275 (extra : BitVec 3) : Statement (.len275 extra) :=
  of_ll rfl rfl rfl extra.isLt (congrArg (fun x => some (Instr.len275 x)) (ofNat_toNat_self extra))

theorem len276 (extra : BitVec 3) : Statement (.len276 extra) :=
  of_ll rfl rfl rfl extra.isLt (congrArg (fun x => some (Instr.len276 x)) (ofNat_toNat_self extra))

theorem len277 (extra : BitVec 4) : Statement (.len277 extra) :=
  of_ll rfl rfl rfl extra.isLt (congrArg (fun x => some (Instr.len277 x)) (ofNat_toNat_self extra))

theorem len278 (extra : BitVec 4) : Statement (.len278 extra) :=
  of_ll rfl rfl rfl extra.isLt (congrArg (fun x => some (Instr.len278 x)) (ofNat_toNat_self extra))

theorem len279 (extra : BitVec 4) : Statement (.len279 extra) :=
  of_ll rfl rfl rfl extra.isLt (congrArg (fun x => some (Instr.len279 x)) (ofNat_toNat_self extra))

theorem len280 (extra : BitVec 4) : Statement (.len280 extra) :=
  of_ll rfl rfl rfl extra.isLt (congrArg (fun x => some (Instr.len280 x)) (ofNat_toNat_self extra))

theorem len281 (extra : BitVec 5) : Statement (.len281 extra) :=
  of_ll rfl rfl rfl extra.isLt (congrArg (fun x => some (Instr.len281 x)) (ofNat_toNat_self extra))

theorem len282 (extra : BitVec 5) : Statement (.len282 extra) :=
  of_ll rfl rfl rfl extra.isLt (congrArg (fun x => some (Instr.len282 x)) (ofNat_toNat_self extra))

theorem len283 (extra : BitVec 5) : Statement (.len283 extra) :=
  of_ll rfl rfl rfl extra.isLt (congrArg (fun x => some (Instr.len283 x)) (ofNat_toNat_self extra))

theorem len284 (extra : BitVec 5) : Statement (.len284 extra) :=
  of_ll rfl rfl rfl extra.isLt (congrArg (fun x => some (Instr.len284 x)) (ofNat_toNat_self extra))

theorem len285 (extra : BitVec 16) : Statement (.len285 extra) :=
  of_ll rfl rfl rfl extra.isLt (congrArg (fun x => some (Instr.len285 x)) (ofNat_toNat_self extra))

theorem invalid286 : Statement .invalid286 :=
  of_ll rfl rfl rfl Nat.one_pos rfl

theorem invalid287 : Statement .invalid287 :=
  of_ll rfl rfl rfl Nat.one_pos rfl

theorem dist0 : Statement .dist0 :=
  of_d rfl rfl rfl Nat.one_pos rfl

theorem dist1 : Statement .dist1 :=
  of_d rfl rfl rfl Nat.one_pos rfl

theorem dist2 : Statement .dist2 :=
  of_d rfl rfl rfl Nat.one_pos rfl

theorem dist3 : Statement .dist3 :=
  of_d rfl rfl rfl Nat.one_pos rfl

theorem dist4 (extra : BitVec 1) : Statement (.dist4 extra) :=
  of_d rfl rfl rfl extra.isLt (congrArg (fun x => some (Instr.dist4 x)) (ofNat_toNat_self extra))

theorem dist5 (extra : BitVec 1) : Statement (.dist5 extra) :=
  of_d rfl rfl rfl extra.isLt (congrArg (fun x => some (Instr.dist5 x)) (ofNat_toNat_self extra))

theorem dist6 (extra : BitVec 2) : Statement (.dist6 extra) :=
  of_d rfl rfl rfl extra.isLt (congrArg (fun x => some (Instr.dist6 x)) (ofNat_toNat_self extra))

theorem dist7 (extra : BitVec 2) : Statement (.dist7 extra) :=
  of_d rfl rfl rfl extra.isLt (congrArg (fun x => some (Instr.dist7 x)) (ofNat_toNat_self extra))

theorem dist8 (extra : BitVec 3) : Statement (.dist8 extra) :=
  of_d rfl rfl rfl extra.isLt (congrArg (fun x => some (Instr.dist8 x)) (ofNat_toNat_self extra))

theorem dist9 (extra : BitVec 3) : Statement (.dist9 extra) :=
  of_d rfl rfl rfl extra.isLt (congrArg (fun x => some (Instr.dist9 x)) (ofNat_toNat_self extra))

theorem dist10 (extra : BitVec 4) : Statement (.dist10 extra) :=
  of_d rfl rfl rfl extra.isLt (congrArg (fun x => some (Instr.dist10 x)) (ofNat_toNat_self extra))

theorem dist11 (extra : BitVec 4) : Statement (.dist11 extra) :=
  of_d rfl rfl rfl extra.isLt (congrArg (fun x => some (Instr.dist11 x)) (ofNat_toNat_self extra))

theorem dist12 (extra : BitVec 5) : Statement (.dist12 extra) :=
  of_d rfl rfl rfl extra.isLt (congrArg (fun x => some (Instr.dist12 x)) (ofNat_toNat_self extra))

theorem dist13 (extra : BitVec 5) : Statement (.dist13 extra) :=
  of_d rfl rfl rfl extra.isLt (congrArg (fun x => some (Instr.dist13 x)) (ofNat_toNat_self extra))

theorem dist14 (extra : BitVec 6) : Statement (.dist14 extra) :=
  of_d rfl rfl rfl extra.isLt (congrArg (fun x => some (Instr.dist14 x)) (ofNat_toNat_self extra))

theorem dist15 (extra : BitVec 6) : Statement (.dist15 extra) :=
  of_d rfl rfl rfl extra.isLt (congrArg (fun x => some (Instr.dist15 x)) (ofNat_toNat_self extra))

theorem dist16 (extra : BitVec 7) : Statement (.dist16 extra) :=
  of_d rfl rfl rfl extra.isLt (congrArg (fun x => some (Instr.dist16 x)) (ofNat_toNat_self extra))

theorem dist17 (extra : BitVec 7) : Statement (.dist17 extra) :=
  of_d rfl rfl rfl extra.isLt (congrArg (fun x => some (Instr.dist17 x)) (ofNat_toNat_self extra))

theorem dist18 (extra : BitVec 8) : Statement (.dist18 extra) :=
  of_d rfl rfl rfl extra.isLt (congrArg (fun x => some (Instr.dist18 x)) (ofNat_toNat_self extra))

theorem dist19 (extra : BitVec 8) : Statement (.dist19 extra) :=
  of_d rfl rfl rfl extra.isLt (congrArg (fun x => some (Instr.dist19 x)) (ofNat_toNat_self extra))

theorem dist20 (extra : BitVec 9) : Statement (.dist20 extra) :=
  of_d rfl rfl rfl extra.isLt (congrArg (fun x => some (Instr.dist20 x)) (ofNat_toNat_self extra))

theorem dist21 (extra : BitVec 9) : Statement (.dist21 extra) :=
  of_d rfl rfl rfl extra.isLt (congrArg (fun x => some (Instr.dist21 x)) (ofNat_toNat_self extra))

theorem dist22 (extra : BitVec 10) : Statement (.dist22 extra) :=
  of_d rfl rfl rfl extra.isLt (congrArg (fun x => some (Instr.dist22 x)) (ofNat_toNat_self extra))

theorem dist23 (extra : BitVec 10) : Statement (.dist23 extra) :=
  of_d rfl rfl rfl extra.isLt (congrArg (fun x => some (Instr.dist23 x)) (ofNat_toNat_self extra))

theorem dist24 (extra : BitVec 11) : Statement (.dist24 extra) :=
  of_d rfl rfl rfl extra.isLt (congrArg (fun x => some (Instr.dist24 x)) (ofNat_toNat_self extra))

theorem dist25 (extra : BitVec 11) : Statement (.dist25 extra) :=
  of_d rfl rfl rfl extra.isLt (congrArg (fun x => some (Instr.dist25 x)) (ofNat_toNat_self extra))

theorem dist26 (extra : BitVec 12) : Statement (.dist26 extra) :=
  of_d rfl rfl rfl extra.isLt (congrArg (fun x => some (Instr.dist26 x)) (ofNat_toNat_self extra))

theorem dist27 (extra : BitVec 12) : Statement (.dist27 extra) :=
  of_d rfl rfl rfl extra.isLt (congrArg (fun x => some (Instr.dist27 x)) (ofNat_toNat_self extra))

theorem dist28 (extra : BitVec 13) : Statement (.dist28 extra) :=
  of_d rfl rfl rfl extra.isLt (congrArg (fun x => some (Instr.dist28 x)) (ofNat_toNat_self extra))

theorem dist29 (extra : BitVec 13) : Statement (.dist29 extra) :=
  of_d rfl rfl rfl extra.isLt (congrArg (fun x => some (Instr.dist29 x)) (ofNat_toNat_self extra))

theorem dist30 (extra : BitVec 14) : Statement (.dist30 extra) :=
  of_d rfl rfl rfl extra.isLt (congrArg (fun x => some (Instr.dist30 x)) (ofNat_toNat_self extra))

theorem dist31 (extra : BitVec 14) : Statement (.dist31 extra) :=
  of_d rfl rfl rfl extra.isLt (congrArg (fun x => some (Instr.dist31 x)) (ofNat_toNat_self extra))

theorem feed (chunk : List Byte) : Statement (.feed chunk) :=
  of_uncoded rfl rfl rfl

theorem readBits (n : Nat) : Statement (.readBits n) :=
  of_uncoded rfl rfl rfl

theorem alignToByte : Statement .alignToByte :=
  of_uncoded rfl rfl rfl

theorem avail : Statement .avail :=
  of_uncoded rfl rfl rfl

theorem build (kind : CodeKind) (lens : List CodeLen) : Statement (.build kind lens) :=
  of_uncoded rfl rfl rfl

theorem decode (T : Code) : Statement (.decode T) :=
  of_uncoded rfl rfl rfl

theorem append (b : Byte) : Statement (.append b) :=
  of_uncoded rfl rfl rfl

theorem copyMatch (d l : Nat) : Statement (.copyMatch d l) :=
  of_uncoded rfl rfl rfl

theorem reset : Statement .reset :=
  of_uncoded rfl rfl rfl

theorem decompress (chunk : List Byte) : Statement (.decompress chunk) :=
  of_uncoded rfl rfl rfl

theorem eof : Statement .eof :=
  of_uncoded rfl rfl rfl

end Sys2Proof.Laws.SymbolRoundTrip
end

