-- ==== Sys2Proof/Laws/Reader.lean ====
section
/-! SUPPORT. The bit reader's laws: what each operation does to the sequence of unconsumed bits, to `bitoff` and to
`bitpos` (20_memory.md R51, R52; 40_bit_reader.md R115 to R121). -/

namespace Sys2Proof

@[simp] theorem byteBits_length (b : Byte) : (byteBits b).length = 8 := by simp [byteBits]

theorem byteBits_getElem? (b : Byte) (i : Nat) (h : i < 8) : (byteBits b)[i]? = some (b.getLsbD i) := by
  simp [byteBits, h]

@[simp] theorem flatMap_byteBits_length (q : List Byte) : (q.flatMap byteBits).length = 8 * q.length := by
  induction q with
  | nil => rfl
  | cons b q ih => simp [ih]; omega

/-- AVAIL is the number of unconsumed bits (R118). -/
theorem Reader.bits_length (r : Reader) : r.bits.length = r.avail := by
  rw [Reader.bits, Reader.avail, List.length_drop, flatMap_byteBits_length]

@[simp] theorem Reader.bits_of_empty (off : BitVec 3) (pos : Nat) : (Reader.mk [] off pos).bits = [] := by
  simp [Reader.bits]

/-- FEED puts the chunk's bits behind the unconsumed ones (R115). -/
theorem Reader.feed_bits {r : Reader} (chunk : List Byte) (h : r.inq = [] → r.bitoff = 0) :
    (r.feed chunk).bits = r.bits ++ chunk.flatMap byteBits := by
  rcases r with ⟨q, off, pos⟩
  cases q with
  | nil => simp [Reader.feed, Reader.bits, h rfl]
  | cons b q =>
    simp only [Reader.feed, Reader.bits, List.flatMap_append]
    refine List.drop_append_of_le_length ?_
    have := off.isLt
    simp; omega

@[simp] theorem Reader.feed_nil (r : Reader) : r.feed [] = r := by simp [Reader.feed]

theorem Reader.feed_append (a b : List Byte) (r : Reader) : r.feed (a ++ b) = (r.feed a).feed b := by
  simp [Reader.feed]

/-- The unconsumed bits are the next bit, then the bits after it (R116). -/
theorem Reader.bits_eq_takeBit {r : Reader} (h : r.inq ≠ []) : r.bits = r.takeBit.1 :: r.takeBit.2.bits := by
  rcases r with ⟨q, off, pos⟩
  cases q with
  | nil => exact absurd rfl h
  | cons b q =>
    have hlt := off.isLt
    have hlen : off.toNat < (byteBits b ++ q.flatMap byteBits).length := by simp; omega
    have hhead : (byteBits b ++ q.flatMap byteBits)[off.toNat] = b.getLsbD off.toNat := by
      rw [List.getElem_append_left (by simp; omega)]
      simp [byteBits]
    simp only [Reader.bits, Reader.takeBit, List.flatMap_cons]
    rw [List.drop_eq_getElem_cons hlen, hhead]
    congr 1
    by_cases h7 : off = 7
    · subst h7
      rw [if_pos rfl]
      exact List.drop_left' (byteBits_length b)
    · rw [if_neg h7]
      have hne : off.toNat ≠ 7 := fun e => h7 (BitVec.eq_of_toNat_eq e)
      have : (off + 1).toNat = off.toNat + 1 := by
        rw [BitVec.toNat_add]
        exact Nat.mod_eq_of_lt (by simp; omega)
      simp only [this, List.flatMap_cons]

@[simp] theorem Reader.takeBit_of_empty (off : BitVec 3) (pos : Nat) :
    (Reader.mk [] off pos).takeBit = (false, ⟨[], off, pos⟩) := rfl

theorem Reader.takeBit_cons (b : Byte) (q : List Byte) (off : BitVec 3) (pos : Nat) :
    (Reader.mk (b :: q) off pos).takeBit =
      (b.getLsbD off.toNat, if off = 7 then ⟨q, 0, pos + 1⟩ else ⟨b :: q, off + 1, pos + 1⟩) := rfl

/-- A bit taken is counted (R116). -/
theorem Reader.takeBit_bitpos {r : Reader} (h : r.inq ≠ []) : r.takeBit.2.bitpos = r.bitpos + 1 := by
  rcases r with ⟨q, off, pos⟩
  cases q with
  | nil => exact absurd rfl h
  | cons b q =>
    simp only [Reader.takeBit]
    split <;> rfl

/-- `bitoff` moves on modulo 8 (R116, R119). -/
theorem Reader.takeBit_bitoff {r : Reader} (h : r.inq ≠ []) : r.takeBit.2.bitoff = r.bitoff + 1 := by
  rcases r with ⟨q, off, pos⟩
  cases q with
  | nil => exact absurd rfl h
  | cons b q =>
    simp only [Reader.takeBit]
    split
    · next h7 => subst h7; rfl
    · rfl

/-- A reader emptied by taking a bit stands at a byte boundary (R22). -/
theorem Reader.takeBit_emptyAligned {r : Reader} (h : r.inq = [] → r.bitoff = 0) :
    r.takeBit.2.inq = [] → r.takeBit.2.bitoff = 0 := by
  rcases r with ⟨q, off, pos⟩
  cases q with
  | nil => exact fun _ => h rfl
  | cons b q =>
    simp only [Reader.takeBit]
    split <;> simp

/-- A bit taken does not see the bytes fed later (R115). -/
theorem Reader.takeBit_feed {r : Reader} (chunk : List Byte) (h : r.inq ≠ []) :
    (r.feed chunk).takeBit = (r.takeBit.1, r.takeBit.2.feed chunk) := by
  rcases r with ⟨q, off, pos⟩
  cases q with
  | nil => exact absurd rfl h
  | cons b q =>
    rw [show Reader.feed chunk ⟨b :: q, off, pos⟩ = ⟨b :: (q ++ chunk), off, pos⟩ from rfl, Reader.takeBit_cons,
      Reader.takeBit_cons]
    by_cases h7 : off = 7
    · rw [if_pos h7, if_pos h7]
      rfl
    · rw [if_neg h7, if_neg h7]
      rfl

theorem Reader.inq_ne_nil_of_avail {r : Reader} {n : Nat} (h : n + 1 ≤ r.avail) : r.inq ≠ [] := by
  intro e
  simp [Reader.avail, e] at h

theorem Reader.avail_takeBit {r : Reader} (h : r.inq ≠ []) : r.takeBit.2.avail + 1 = r.avail := by
  rw [← Reader.bits_length, ← Reader.bits_length, Reader.bits_eq_takeBit h, List.length_cons]

/-- What READ_BITS's loop takes when the bits are there: an `n`-bit value whose bit `i` is the `i`-th bit of the stream
(20_memory.md R53), those bits and no more, all of them counted. -/
theorem Reader.takeBits_spec {n : Nat} {r : Reader} (h : n ≤ r.avail) :
    (r.takeBits n).1 < 2 ^ n ∧ r.bits = (List.range n).map (r.takeBits n).1.testBit ++ (r.takeBits n).2.bits ∧
      (r.takeBits n).2.bitpos = r.bitpos + n := by
  induction n generalizing r with
  | zero => simp [Reader.takeBits]
  | succ n ih =>
    have hq := Reader.inq_ne_nil_of_avail h
    have ha := Reader.avail_takeBit hq
    obtain ⟨hlt, hbits, hpos⟩ := ih (r := r.takeBit.2) (by omega)
    refine ⟨?_, ?_, ?_⟩
    · have := Bool.toNat_lt r.takeBit.1
      simp only [Reader.takeBits, Nat.pow_succ]; omega
    · rw [Reader.bits_eq_takeBit hq, List.range_succ_eq_map, List.map_cons, List.map_map, List.cons_append]
      simp only [Reader.takeBits]
      congr 1
      · cases r.takeBit.1 <;> simp [Nat.testBit_zero, Nat.add_mod]
      · rw [hbits]
        congr 1
        refine List.map_congr_left fun i _ => ?_
        simp only [Function.comp, Nat.testBit_succ]
        congr 1
        have := Bool.toNat_lt r.takeBit.1
        omega
    · simp only [Reader.takeBits, hpos, Reader.takeBit_bitpos hq]; omega

/-- READ_BITS answers (R116): `suspend` exactly when bits are missing, the value and the reader otherwise. -/
theorem Reader.readBits_cases (n : Nat) (r : Reader) :
    (r.avail < n ∧ r.readBits n = none) ∨ (n ≤ r.avail ∧ r.readBits n = some (r.takeBits n)) := by
  unfold Reader.readBits
  split
  · next h => exact .inl ⟨h, rfl⟩
  · next h => exact .inr ⟨by omega, rfl⟩

/-- ALIGN_TO_BYTE ends at a byte boundary (R117). -/
@[simp] theorem Reader.align_bitoff (r : Reader) : r.align.bitoff = 0 := by
  unfold Reader.align
  split
  · assumption
  · rfl

/-- ALIGN_TO_BYTE discards the rest of the head byte and nothing else (R117). -/
theorem Reader.align_bits {r : Reader} (h : r.inq = [] → r.bitoff = 0) :
    r.align.bits = r.bits.drop (r.align.bitpos - r.bitpos) := by
  rcases r with ⟨q, off, pos⟩
  unfold Reader.align
  split
  · next h0 => simp
  · next h0 =>
    cases q with
    | nil => exact absurd (h rfl) h0
    | cons b q =>
      have := off.isLt
      have h8 : off.toNat - 8 = 0 := by omega
      simp [Reader.bits, List.drop_append, h8]

end Sys2Proof
end

