-- ==== Sys2Proof/Laws/Step.lean ====
section
/-! SUPPORT. Everything one step can do: the inversion of `step` and of the distance elements' shared meaning. -/

namespace Sys2Proof.Machine

theorem State.expect_idle {s : State} (h : s.phase = .idle) : s.expect = none := by simp [State.expect, h]

/-- Fetching in a call. -/
theorem fetch_running {s : State} (h : s.phase ≠ .idle) :
    fetch s = match s.expect with
      | some e => fetchElem e s.enterUnit
      | none => if s.fsm = .done then .settled s.endOfStream else .settled (s.raise .sessionFailed) := by
  unfold fetch
  cases hp : s.phase with
  | idle => exact absurd hp h
  | between | storedHdr | dynCounts | clLens | clSyms | dist => rfl

/-- What a step that answers a next state has done (44_fsm_host.md R192, R194, R195): it waited for the host, ran the
oldest transaction, ran the element it decoded, suspended, raised E_INVALID_CODE, or ended the call. -/
theorem step_cases {s t : State} (h : step s = .next t) :
    (s.phase = .idle ∧ s.calls = [] ∧ t = s) ∨
      (∃ c cs, s.phase = .idle ∧ s.calls = c :: cs ∧ exec c.instr { s with calls := cs } = .next t) ∨
      (∃ e i r, s.phase ≠ .idle ∧ s.expect = some e ∧ decode e s.rd = .found i r ∧
        exec i { s.enterUnit with rd := r } = .next t) ∨
      (∃ e, s.phase ≠ .idle ∧ s.expect = some e ∧ decode e s.rd = .suspend ∧ t = s.enterUnit.suspend) ∨
      (∃ e r, s.phase ≠ .idle ∧ s.expect = some e ∧ decode e s.rd = .invalid r ∧
        t = State.raise .invalidCode { s.enterUnit with rd := r }) ∨
      (s.phase ≠ .idle ∧ s.expect = none ∧ s.fsm = .done ∧ t = s.endOfStream) ∨
      (s.phase ≠ .idle ∧ s.expect = none ∧ s.fsm ≠ .done ∧ t = s.raise .sessionFailed) := by
  by_cases hp : s.phase = .idle
  · cases hc : s.calls with
    | nil =>
      have : step s = .next s := by simp [step, fetch, hp, hc]
      rw [this] at h
      cases h
      exact .inl ⟨hp, rfl, rfl⟩
    | cons c cs =>
      refine .inr (.inl ⟨c, cs, hp, rfl, ?_⟩)
      simpa [step, fetch, hp, hc] using h
  · rw [step, fetch_running hp] at h
    cases he : s.expect with
    | none =>
      by_cases hd : s.fsm = .done
      · simp only [he, hd, if_true, Host.Outcome.next.injEq] at h
        exact .inr (.inr (.inr (.inr (.inr (.inl ⟨hp, rfl, hd, h.symm⟩)))))
      · simp only [he, hd, if_false, Host.Outcome.next.injEq] at h
        exact .inr (.inr (.inr (.inr (.inr (.inr ⟨hp, rfl, hd, h.symm⟩)))))
    | some e =>
      simp only [he, fetchElem, State.enterUnit_rd] at h
      cases hdec : decode e s.rd with
      | found i r =>
        simp only [hdec] at h
        exact .inr (.inr (.inl ⟨e, i, r, hp, rfl, rfl.trans hdec, h⟩))
      | suspend =>
        simp only [hdec, Host.Outcome.next.injEq] at h
        exact .inr (.inr (.inr (.inl ⟨e, hp, rfl, hdec, h.symm⟩)))
      | invalid r =>
        simp only [hdec, Host.Outcome.next.injEq] at h
        exact .inr (.inr (.inr (.inr (.inl ⟨e, r, hp, rfl, hdec, h.symm⟩))))

end Sys2Proof.Machine
end

