-- ==== Sys2Proof/Machine/Assembler.lean ====
section
/-! DEFINITION. The spec's assembler notation (30_encoding.md §11) as data, and assembling: the bytes of the stream a
program writes. The decoder does not use it; it is the spec's own way to write streams.
The spec gives no stream for an item out of range; what such an item is written as is a DESIGN CHOICE (log entry 20). -/

namespace Sys2Proof

/-- The items of a Huffman block's body (R110, R111). `str` stands for one LIT per byte. -/
inductive AsmItem where
  /-- LIT byte. -/
  | lit (b : Byte)
  /-- LEN s, extra DIST t, extra. -/
  | lenDist (s lenExtra t distExtra : Nat)
  /-- MATCH l, d (R111). -/
  | mtch (l d : Nat)
  /-- SYM s: a raw LL symbol without an extra field. -/
  | sym (s : Nat)
  /-- STR "text" (R111). -/
  | str (bytes : List Byte)
  deriving DecidableEq, Repr

/-- The blocks of a program (R110). `cl` holds the CL lengths in transmission order, `seq` the CLSYM items with their
extra values. -/
inductive AsmBlock where
  /-- STORED [FINAL] LEN= [NLEN=] DATA=. -/
  | stored (final : Bool) (len : BitVec 16) (nlen : Option (BitVec 16)) (data : List Byte)
  /-- FIXED [FINAL] item* EOB. -/
  | fixed (final : Bool) (items : List AsmItem)
  /-- DYNAMIC [FINAL] HLIT= HDIST= HCLEN= CL=[...] clitem+ item* EOB. -/
  | dynamic (final : Bool) (hlit hdist : BitVec 5) (hclen : BitVec 4) (cl : List (BitVec 3)) (seq : List (Nat × Nat))
      (items : List AsmItem)
  deriving DecidableEq, Repr

/-- Pieces of a stream written one after another, if every one can be written. -/
def joinBits : List (Option (List Bool)) → Option (List Bool)
  | [] => some []
  | p :: ps => p.bind fun bs => (joinBits ps).map (bs ++ ·)

/-- A symbol of a code and its extra field, or none where it has no codeword (R112). Of an extra value wider than its field
the low bits are written: a DESIGN CHOICE (log entry 20). -/
def asmSymbol (T : Code) (width s extra : Nat) : Option (List Bool) :=
  (T.codeword s).map fun w => w.bits ++ fieldBits width extra

/-- A LEN and a DIST (R112). -/
def asmLenDist (ll d : Code) (s lenExtra t distExtra : Nat) : Option (List Bool) :=
  joinBits [asmSymbol ll (lext s) s lenExtra, asmSymbol d (dext t) t distExtra]

/-- The bits of an item under the block's codes (R111, R112). A MATCH outside R111's ranges is written with the nearest
symbol and a truncated extra field: a DESIGN CHOICE (log entry 20). -/
def AsmItem.bits (ll d : Code) : AsmItem → Option (List Bool)
  | .lit b => asmSymbol ll 0 b.toNat 0
  | .lenDist s x t y => asmLenDist ll d s x t y
  | .mtch l dist =>
    asmLenDist ll d (lengthSymbolOf l) (l - lbase (lengthSymbolOf l)) (distSymbolOf dist)
      (dist - dbase (distSymbolOf dist))
  | .sym s => asmSymbol ll 0 s 0
  | .str bytes => joinBits (bytes.map fun b => asmSymbol ll 0 b.toNat 0)

/-- The items of a body, then EOB (R110). -/
def asmBody (ll d : Code) (items : List AsmItem) : Option (List Bool) :=
  joinBits (items.map (AsmItem.bits ll d) ++ [asmSymbol ll 0 256 0])

/-- The 19 CL lengths from their transmission order (R82). -/
def asmClLens (cl : List (BitVec 3)) : List CodeLen :=
  (clOrder.zip cl).foldl (fun ls p => ls.set p.1 (p.2.setWidth 4)) (List.replicate 19 0)

/-- The lengths the CLSYM items stand for (R84, R99); a 16 with nothing before it stands for none. -/
def asmLens : (sofar : List CodeLen) → List (Nat × Nat) → Option (List CodeLen)
  | sofar, [] => some sofar
  | sofar, (s, x) :: rest =>
    if s < 16 then asmLens (sofar ++ [BitVec.ofNat 4 s]) rest
    else if s = 16 then
      sofar.getLast?.bind fun v => asmLens (sofar ++ List.replicate (shortRun x) v) rest
    else if s = 17 then asmLens (sofar ++ List.replicate (shortRun x) 0) rest
    else if s = 18 then asmLens (sofar ++ List.replicate (longRun x) 0) rest
    else none

/-- The bits of a block that begins `pos` bits into the stream: a stored block's header is followed by zero bits up to a
byte boundary (R78). -/
def AsmBlock.bits (pos : Nat) : AsmBlock → Option (List Bool)
  | .stored final len nlen data =>
    some <| fieldBits 1 final.toNat ++ fieldBits 2 0 ++ List.replicate ((13 - pos % 8) % 8) false ++
      fieldBits 16 len.toNat ++ fieldBits 16 (nlen.getD (len ^^^ 0xFFFF#16)).toNat ++ data.flatMap byteBits
  | .fixed final items =>
    (asmBody (codeOf fixedLL) (codeOf fixedD) items).map
      (fieldBits 1 final.toNat ++ fieldBits 2 1 ++ ·)
  | .dynamic final hlit hdist hclen cl seq items =>
    (asmLens [] seq).bind fun lens =>
      let clt := codeOf (asmClLens cl)
      let ll := codeOf (lens.take (nlenOf hlit) ++ List.replicate (288 - nlenOf hlit) 0)
      let d := codeOf ((lens.drop (nlenOf hlit)).take (ndistOf hdist) ++ List.replicate (32 - ndistOf hdist) 0)
      joinBits <|
        [some (fieldBits 1 final.toNat ++ fieldBits 2 2), some (fieldBits 5 hlit.toNat), some (fieldBits 5 hdist.toNat),
          some (fieldBits 4 hclen.toNat), some (cl.flatMap fun l => fieldBits 3 l.toNat)] ++
        seq.map (fun p => asmSymbol clt (clExt p.1) p.1 p.2) ++ [asmBody ll d items]

/-- The blocks' bits one after another. -/
def asmBits : (pos : Nat) → List AsmBlock → Option (List Bool)
  | _, [] => some []
  | pos, b :: bs => (b.bits pos).bind fun x => (asmBits (pos + x.length) bs).map (x ++ ·)

/-- The stream of a program: after its last block it is padded with zero bits to a byte boundary (R110). -/
def assemble (program : List AsmBlock) : Option (List Byte) := (asmBits 0 program).map (packBits 0 0)

end Sys2Proof
end

