-- ==== Sys2Proof/Tests/Slice0.lean ====
section
/-! SUPPORT. The model's own tests. Expected results are from spec/95_test_vectors.md and the encoding rules, never from
the model. After them one witness for each statement that has hypotheses. -/

namespace Sys2Proof.Tests

-- One theorem at a time: all of them at once need more thread stacks than the check's memory limit allows.
set_option Elab.async false

open Sys2Proof.Machine

/-! ### WellFormed refuses each ill-formed term -/

/-- R116: 0 to 16 bits. -/
theorem test_wf_readBits :
    Instr.wf (.readBits 16) = true ∧
      Instr.wf (.readBits 17) = false := by decide +kernel

/-- R125: one length per symbol. -/
theorem test_wf_build :
    Instr.wf (.build .d (List.replicate 32 0)) = true ∧
      Instr.wf (.build .d (List.replicate 31 0)) = false ∧
      Instr.wf (.build .cl (List.replicate 32 0)) = false := by decide +kernel

/-- R125, R94, R130: a length of 0 or 16, a value too wide, a symbol of no alphabet, a codeword that begins another, symbols out of order. -/
theorem test_wf_decode :
    Instr.wf (.decode [⟨0, 1, 0⟩, ⟨1, 1, 287⟩]) = true ∧
      Instr.wf (.decode [⟨0, 0, 0⟩]) = false ∧
      Instr.wf (.decode [⟨0, 16, 0⟩]) = false ∧
      Instr.wf (.decode [⟨2, 1, 0⟩]) = false ∧
      Instr.wf (.decode [⟨0, 1, 288⟩]) = false ∧
      Instr.wf (.decode [⟨0, 1, 0⟩, ⟨1, 2, 1⟩]) = false ∧
      Instr.wf (.decode [⟨0, 1, 1⟩, ⟨1, 1, 0⟩]) = false := by decide +kernel

/-- R141. -/
theorem test_wf_copyMatch :
    Instr.wf (.copyMatch 65536 65538) = true ∧
      Instr.wf (.copyMatch 1 3) = true ∧
      Instr.wf (.copyMatch 0 3) = false ∧
      Instr.wf (.copyMatch 65537 3) = false ∧
      Instr.wf (.copyMatch 1 2) = false ∧
      Instr.wf (.copyMatch 1 65539) = false := by decide +kernel

/-! ### Decoding, from words written out from the encoding rules -/

/-- R76, R77: BFINAL, then BTYPE, least significant bit first. -/
theorem test_decode_block_headers :
    decode .blockHeader ⟨[0x00], 0, 0⟩ = .found (.blkStored false) ⟨[0x00], 3, 3⟩ ∧
      decode .blockHeader ⟨[0x01], 0, 0⟩ = .found (.blkStored true) ⟨[0x01], 3, 3⟩ ∧
      decode .blockHeader ⟨[0x02], 0, 0⟩ = .found (.blkFixed false) ⟨[0x02], 3, 3⟩ ∧
      decode .blockHeader ⟨[0x03], 0, 0⟩ = .found (.blkFixed true) ⟨[0x03], 3, 3⟩ ∧
      decode .blockHeader ⟨[0x04], 0, 0⟩ = .found (.blkDynamic false) ⟨[0x04], 3, 3⟩ ∧
      decode .blockHeader ⟨[0x05], 0, 0⟩ = .found (.blkDynamic true) ⟨[0x05], 3, 3⟩ ∧
      decode .blockHeader ⟨[0x06], 0, 0⟩ = .found (.blkReserved false) ⟨[0x06], 3, 3⟩ ∧
      decode .blockHeader ⟨[0x07], 0, 0⟩ = .found (.blkReserved true) ⟨[0x07], 3, 3⟩ := by decide +kernel

/-- R79, R153, R154. -/
theorem test_decode_stored :
    decode .storedHdr ⟨[0x02, 0x01, 0xFD, 0xFE], 0, 0⟩ = .found (.storedHdr 0x0102 0xFEFD) ⟨[], 0, 32⟩ ∧
      decode .storedByte ⟨[0xA7], 0, 0⟩ = .found (.storedByte 0xA7) ⟨[], 0, 8⟩ ∧
      decode .storedEnd ⟨[0x55], 3, 11⟩ = .found .storedEnd ⟨[0x55], 3, 11⟩ := by decide +kernel

/-- R81, R83. -/
theorem test_decode_dynamic_fields :
    decode .dynCounts ⟨[0x7D, 0x38], 0, 0⟩ = .found (.dynCounts 29 3 14) ⟨[0x38], 6, 14⟩ ∧
      decode .clLen ⟨[0x03], 0, 0⟩ = .found (.clLen 3) ⟨[0x03], 3, 3⟩ ∧
      decode .clLen ⟨[0x06], 0, 0⟩ = .found (.clLen 6) ⟨[0x06], 3, 3⟩ := by decide +kernel

/-- R84, with the codewords 95_test_vectors.md gives the CL lengths CLSTD. -/
theorem test_decode_cl_symbols :
    decode (.clSym (codeOf clStdLens)) ⟨[0x00], 0, 0⟩ = .found (.clSet 0) ⟨[0x00], 4, 4⟩ ∧
      decode (.clSym (codeOf clStdLens)) ⟨[0x06], 0, 0⟩ = .found (.clSet 6) ⟨[0x06], 4, 4⟩ ∧
      decode (.clSym (codeOf clStdLens)) ⟨[0x03], 0, 0⟩ = .found (.clSet 12) ⟨[0x03], 4, 4⟩ ∧
      decode (.clSym (codeOf clStdLens)) ⟨[0x0B], 0, 0⟩ = .found (.clSet 13) ⟨[0x0B], 5, 5⟩ ∧
      decode (.clSym (codeOf clStdLens)) ⟨[0x07], 0, 0⟩ = .found (.clSet 15) ⟨[0x07], 5, 5⟩ ∧
      decode (.clSym (codeOf clStdLens)) ⟨[0x37], 0, 0⟩ = .found (.clRep16 1) ⟨[0x37], 7, 7⟩ ∧
      decode (.clSym (codeOf clStdLens)) ⟨[0x6F], 0, 0⟩ = .found (.clZero17 3) ⟨[], 0, 8⟩ ∧
      decode (.clSym (codeOf clStdLens)) ⟨[0xDF, 0x04], 0, 0⟩ = .found (.clZero18 0x26) ⟨[0x04], 4, 12⟩ := by decide +kernel

/-- R86, R90; vectors V-H14, V-H18, V-H19, V-H15. -/
theorem test_decode_literals :
    decode (.llSym (codeOf fixedLL)) ⟨[0x89], 0, 0⟩ = .found (.lit 97) ⟨[], 0, 8⟩ ∧
      decode (.llSym (codeOf fixedLL)) ⟨[0x13, 0x00], 0, 0⟩ = .found (.lit 144) ⟨[0x00], 1, 9⟩ ∧
      decode (.llSym (codeOf fixedLL)) ⟨[0xFF, 0x01], 0, 0⟩ = .found (.lit 255) ⟨[0x01], 1, 9⟩ ∧
      decode (.llSym (codeOf fixedLL)) ⟨[0x00], 0, 0⟩ = .found .eob ⟨[0x00], 7, 7⟩ := by decide +kernel

/-- The fixed codewords of LL symbols 256 to 287, written out from R90. -/
def fixedHigh : Code :=
  ((List.range 24).map fun k => ⟨k, 7, 256 + k⟩) ++ (List.range 8).map fun k => ⟨0xC0 + k, 8, 280 + k⟩

/-- R86, R92: codeword, then nothing. -/
theorem test_decode_length_symbols_plain :
    decode (.llSym fixedHigh) ⟨[0x40], 0, 0⟩ = .found .len257 ⟨[0x40], 7, 7⟩ ∧
      decode (.llSym fixedHigh) ⟨[0x20], 0, 0⟩ = .found .len258 ⟨[0x20], 7, 7⟩ ∧
      decode (.llSym fixedHigh) ⟨[0x60], 0, 0⟩ = .found .len259 ⟨[0x60], 7, 7⟩ ∧
      decode (.llSym fixedHigh) ⟨[0x10], 0, 0⟩ = .found .len260 ⟨[0x10], 7, 7⟩ ∧
      decode (.llSym fixedHigh) ⟨[0x50], 0, 0⟩ = .found .len261 ⟨[0x50], 7, 7⟩ ∧
      decode (.llSym fixedHigh) ⟨[0x30], 0, 0⟩ = .found .len262 ⟨[0x30], 7, 7⟩ ∧
      decode (.llSym fixedHigh) ⟨[0x70], 0, 0⟩ = .found .len263 ⟨[0x70], 7, 7⟩ ∧
      decode (.llSym fixedHigh) ⟨[0x08], 0, 0⟩ = .found .len264 ⟨[0x08], 7, 7⟩ ∧
      decode (.llSym fixedHigh) ⟨[0x63], 0, 0⟩ = .found .invalid286 ⟨[], 0, 8⟩ ∧
      decode (.llSym fixedHigh) ⟨[0xE3], 0, 0⟩ = .found .invalid287 ⟨[], 0, 8⟩ ∧
      decode (.llSym fixedHigh) ⟨[0x00], 0, 0⟩ = .found .eob ⟨[0x00], 7, 7⟩ := by decide +kernel

/-- R92, R88: codeword most significant bit first, then the extra field least significant bit first. -/
theorem test_decode_length_symbols_extra :
    decode (.llSym fixedHigh) ⟨[0xC8], 0, 0⟩ = .found (.len265 1) ⟨[], 0, 8⟩ ∧
      decode (.llSym fixedHigh) ⟨[0xA8], 0, 0⟩ = .found (.len266 1) ⟨[], 0, 8⟩ ∧
      decode (.llSym fixedHigh) ⟨[0xE8], 0, 0⟩ = .found (.len267 1) ⟨[], 0, 8⟩ ∧
      decode (.llSym fixedHigh) ⟨[0x98], 0, 0⟩ = .found (.len268 1) ⟨[], 0, 8⟩ ∧
      decode (.llSym fixedHigh) ⟨[0xD8, 0x00], 0, 0⟩ = .found (.len269 1) ⟨[0x00], 1, 9⟩ ∧
      decode (.llSym fixedHigh) ⟨[0xB8, 0x00], 0, 0⟩ = .found (.len270 1) ⟨[0x00], 1, 9⟩ ∧
      decode (.llSym fixedHigh) ⟨[0xF8, 0x00], 0, 0⟩ = .found (.len271 1) ⟨[0x00], 1, 9⟩ ∧
      decode (.llSym fixedHigh) ⟨[0x84, 0x00], 0, 0⟩ = .found (.len272 1) ⟨[0x00], 1, 9⟩ ∧
      decode (.llSym fixedHigh) ⟨[0xC4, 0x02], 0, 0⟩ = .found (.len273 5) ⟨[0x02], 2, 10⟩ ∧
      decode (.llSym fixedHigh) ⟨[0xA4, 0x02], 0, 0⟩ = .found (.len274 5) ⟨[0x02], 2, 10⟩ ∧
      decode (.llSym fixedHigh) ⟨[0xE4, 0x02], 0, 0⟩ = .found (.len275 5) ⟨[0x02], 2, 10⟩ ∧
      decode (.llSym fixedHigh) ⟨[0x94, 0x02], 0, 0⟩ = .found (.len276 5) ⟨[0x02], 2, 10⟩ ∧
      decode (.llSym fixedHigh) ⟨[0xD4, 0x05], 0, 0⟩ = .found (.len277 11) ⟨[0x05], 3, 11⟩ ∧
      decode (.llSym fixedHigh) ⟨[0xB4, 0x05], 0, 0⟩ = .found (.len278 11) ⟨[0x05], 3, 11⟩ ∧
      decode (.llSym fixedHigh) ⟨[0xF4, 0x05], 0, 0⟩ = .found (.len279 11) ⟨[0x05], 3, 11⟩ ∧
      decode (.llSym fixedHigh) ⟨[0x03, 0x0B], 0, 0⟩ = .found (.len280 11) ⟨[0x0B], 4, 12⟩ ∧
      decode (.llSym fixedHigh) ⟨[0x83, 0x15], 0, 0⟩ = .found (.len281 21) ⟨[0x15], 5, 13⟩ ∧
      decode (.llSym fixedHigh) ⟨[0x43, 0x15], 0, 0⟩ = .found (.len282 21) ⟨[0x15], 5, 13⟩ ∧
      decode (.llSym fixedHigh) ⟨[0xC3, 0x15], 0, 0⟩ = .found (.len283 21) ⟨[0x15], 5, 13⟩ ∧
      decode (.llSym fixedHigh) ⟨[0x23, 0x15], 0, 0⟩ = .found (.len284 21) ⟨[0x15], 5, 13⟩ ∧
      decode (.llSym fixedHigh) ⟨[0xA3, 0x35, 0x9A], 0, 0⟩ = .found (.len285 39477) ⟨[], 0, 24⟩ := by decide +kernel

/-- R91, R93. -/
theorem test_decode_distance_symbols :
    decode (.dSym (codeOf fixedD)) ⟨[0x00], 0, 0⟩ = .found .dist0 ⟨[0x00], 5, 5⟩ ∧
      decode (.dSym (codeOf fixedD)) ⟨[0x10], 0, 0⟩ = .found .dist1 ⟨[0x10], 5, 5⟩ ∧
      decode (.dSym (codeOf fixedD)) ⟨[0x08], 0, 0⟩ = .found .dist2 ⟨[0x08], 5, 5⟩ ∧
      decode (.dSym (codeOf fixedD)) ⟨[0x18], 0, 0⟩ = .found .dist3 ⟨[0x18], 5, 5⟩ ∧
      decode (.dSym (codeOf fixedD)) ⟨[0x24], 0, 0⟩ = .found (.dist4 1) ⟨[0x24], 6, 6⟩ ∧
      decode (.dSym (codeOf fixedD)) ⟨[0x34], 0, 0⟩ = .found (.dist5 1) ⟨[0x34], 6, 6⟩ ∧
      decode (.dSym (codeOf fixedD)) ⟨[0x2C], 0, 0⟩ = .found (.dist6 1) ⟨[0x2C], 7, 7⟩ ∧
      decode (.dSym (codeOf fixedD)) ⟨[0x3C], 0, 0⟩ = .found (.dist7 1) ⟨[0x3C], 7, 7⟩ ∧
      decode (.dSym (codeOf fixedD)) ⟨[0xA2], 0, 0⟩ = .found (.dist8 5) ⟨[], 0, 8⟩ ∧
      decode (.dSym (codeOf fixedD)) ⟨[0xB2], 0, 0⟩ = .found (.dist9 5) ⟨[], 0, 8⟩ ∧
      decode (.dSym (codeOf fixedD)) ⟨[0x6A, 0x01], 0, 0⟩ = .found (.dist10 11) ⟨[0x01], 1, 9⟩ ∧
      decode (.dSym (codeOf fixedD)) ⟨[0x7A, 0x01], 0, 0⟩ = .found (.dist11 11) ⟨[0x01], 1, 9⟩ ∧
      decode (.dSym (codeOf fixedD)) ⟨[0xA6, 0x02], 0, 0⟩ = .found (.dist12 21) ⟨[0x02], 2, 10⟩ ∧
      decode (.dSym (codeOf fixedD)) ⟨[0xB6, 0x02], 0, 0⟩ = .found (.dist13 21) ⟨[0x02], 2, 10⟩ ∧
      decode (.dSym (codeOf fixedD)) ⟨[0xAE, 0x06], 0, 0⟩ = .found (.dist14 53) ⟨[0x06], 3, 11⟩ ∧
      decode (.dSym (codeOf fixedD)) ⟨[0xBE, 0x06], 0, 0⟩ = .found (.dist15 53) ⟨[0x06], 3, 11⟩ := by decide +kernel

/-- R91, R93. -/
theorem test_decode_distance_symbols_far :
    decode (.dSym (codeOf fixedD)) ⟨[0xA1, 0x06], 0, 0⟩ = .found (.dist16 53) ⟨[0x06], 4, 12⟩ ∧
      decode (.dSym (codeOf fixedD)) ⟨[0xB1, 0x06], 0, 0⟩ = .found (.dist17 53) ⟨[0x06], 4, 12⟩ ∧
      decode (.dSym (codeOf fixedD)) ⟨[0xA9, 0x06], 0, 0⟩ = .found (.dist18 53) ⟨[0x06], 5, 13⟩ ∧
      decode (.dSym (codeOf fixedD)) ⟨[0xB9, 0x06], 0, 0⟩ = .found (.dist19 53) ⟨[0x06], 5, 13⟩ ∧
      decode (.dSym (codeOf fixedD)) ⟨[0xA5, 0x06], 0, 0⟩ = .found (.dist20 53) ⟨[0x06], 6, 14⟩ ∧
      decode (.dSym (codeOf fixedD)) ⟨[0xB5, 0x06], 0, 0⟩ = .found (.dist21 53) ⟨[0x06], 6, 14⟩ ∧
      decode (.dSym (codeOf fixedD)) ⟨[0xAD, 0x46], 0, 0⟩ = .found (.dist22 565) ⟨[0x46], 7, 15⟩ ∧
      decode (.dSym (codeOf fixedD)) ⟨[0xBD, 0x46], 0, 0⟩ = .found (.dist23 565) ⟨[0x46], 7, 15⟩ ∧
      decode (.dSym (codeOf fixedD)) ⟨[0xA3, 0x46], 0, 0⟩ = .found (.dist24 565) ⟨[], 0, 16⟩ ∧
      decode (.dSym (codeOf fixedD)) ⟨[0xB3, 0x46], 0, 0⟩ = .found (.dist25 565) ⟨[], 0, 16⟩ ∧
      decode (.dSym (codeOf fixedD)) ⟨[0xAB, 0x46, 0x01], 0, 0⟩ = .found (.dist26 2613) ⟨[0x01], 1, 17⟩ ∧
      decode (.dSym (codeOf fixedD)) ⟨[0xBB, 0x46, 0x01], 0, 0⟩ = .found (.dist27 2613) ⟨[0x01], 1, 17⟩ ∧
      decode (.dSym (codeOf fixedD)) ⟨[0xA7, 0x46, 0x03], 0, 0⟩ = .found (.dist28 6709) ⟨[0x03], 2, 18⟩ ∧
      decode (.dSym (codeOf fixedD)) ⟨[0xB7, 0x46, 0x03], 0, 0⟩ = .found (.dist29 6709) ⟨[0x03], 2, 18⟩ ∧
      decode (.dSym (codeOf fixedD)) ⟨[0xAF, 0x46, 0x03], 0, 0⟩ = .found (.dist30 6709) ⟨[0x03], 3, 19⟩ ∧
      decode (.dSym (codeOf fixedD)) ⟨[0xBF, 0x46, 0x03], 0, 0⟩ = .found (.dist31 6709) ⟨[0x03], 3, 19⟩ := by decide +kernel

/-- R121, R132, R133: too few bits suspend; bits of no codeword are taken up to the detecting one. -/
theorem test_decode_stops :
    decode .blockHeader ⟨[0x80], 6, 6⟩ = .suspend ∧
      decode .storedHdr ⟨[0x01, 0x00, 0xFE], 0, 0⟩ = .suspend ∧
      decode (.dSym (codeOf fixedD)) ⟨[0xFE], 5, 5⟩ = .suspend ∧
      decode (.dSym []) ⟨[0xFE], 5, 5⟩ = .invalid ⟨[0xFE], 5, 5⟩ ∧
      decode (.dSym [⟨0, 1, 0⟩]) ⟨[0xFE], 5, 5⟩ = .invalid ⟨[0xFE], 6, 6⟩ := by decide +kernel

/-- The encoder writes the same words. -/
theorem test_encode :
    encode .blockHeader (.blkDynamic true) = some [true, false, true] ∧
      encode .dynCounts (.dynCounts 29 3 14) = some [true, false, true, true, true, true, true, false, false, false, false, true, true, true] ∧
      encode (.clSym (codeOf clStdLens)) (.clZero17 3) = some [true, true, true, true, false, true, true, false] ∧
      encode (.llSym fixedHigh) (.len265 1) = some [false, false, false, true, false, false, true, true] ∧
      encode (.dSym (codeOf fixedD)) (.dist31 0x3FFE) = some [true, true, true, true, true, false, true, true, true, true, true, true, true, true, true, true, true, true, true] ∧
      encode .blockHeader .eob = none := by decide +kernel

/-- 95_test_vectors.md P2 and P4 (30_encoding.md R110 to R112). -/
theorem test_assemble_programs :
    assemble [.fixed true [.lit 0x61, .mtch 4 1]] = some [0x4B, 0x04, 0x01, 0x00] ∧
      assemble [.stored false 2 none [0x61, 0x62], .fixed true [.mtch 3 2]] =
        some [0x00, 0x02, 0x00, 0xFD, 0xFF, 0x61, 0x62, 0x03, 0x42, 0x00] := by decide +kernel

/-- 95_test_vectors.md P5. -/
theorem test_assemble_dynamic :
    assemble [.dynamic true 0 1 14 [0, 0, 1, 0, 0, 0, 0, 0, 0, 0, 0, 0, 0, 0, 0, 0, 0, 1]
        [(18, 54), (1, 0), (18, 127), (18, 41), (1, 0), (1, 0), (1, 0)] [.lit 0x41]] =
      some [0x05, 0xC1, 0x81, 0x00, 0x00, 0x00, 0x00, 0x00, 0x90, 0x36, 0xFF, 0x53, 0x10] := by decide +kernel

/-! ### The opcode table's words -/

theorem test_decodeTableWord :
    decodeTableWord 8 2 = some (.blkFixed false) ∧
      decodeTableWord 32 0 = some (.storedHdr 0 0) ∧
      decodeTableWord 0 0 = some .storedEnd ∧
      decodeTableWord 8 16 = some (.clRep16 0) ∧
      decodeTableWord 16 31 = some (.dist31 0) ∧
      decodeTableWord 8 9 = some (.dist9 0) := by decide +kernel

theorem test_decodeTableWord_ll :
    decodeTableWord 16 285 = some (.len285 0) := by decide +kernel

/-- What a step answers, looked at by a test. -/
def gives (p : State → Bool) : Result → Bool
  | .next t => p t
  | .fault _ => false
  | .refused _ => false

/-- DIST_5 as the first instruction: its copy has nothing to read (R142). -/
theorem test_withFetchWord_dist :
    gives (fun t => t.err == some .distTooFar && t.fsm == .failed) (step (State.reset.withFetchWord 8 5)) = true := by decide +kernel

/-- BLK_STORED as the first instruction (R151). -/
theorem test_withFetchWord_header :
    gives (fun t => t.phase == .storedHdr && t.bfinal == false) (step (State.reset.withFetchWord 8 0)) = true := by decide +kernel

/-! ### One instruction each, from the vectors and the rules -/

/-- A call is running between two units, with the given reader. -/
def inCall (rd : Reader) : State := { State.reset with rd := rd, phase := .between }

/-- The session has produced "ab". -/
def afterAB : State :=
  { inCall ⟨[], 0, 0⟩ with win := [(0, 0x61), (1, 0x62)], wpos := 2, total := 2, out := [0x61, 0x62], bfinal := true }

/-- A dynamic header under way whose sequence is to hold 258 lengths and holds the given ones. -/
def inSeq (lens : List CodeLen) : State :=
  { inCall ⟨[], 0, 0⟩ with
    phase := .clSyms, hdr := { nlen := 257, ndist := 1, ncode := 19, clLen := clStdLens, nread := 19, lens := lens } }

/-- V-B1, V-B5. -/
theorem test_exec_readBits :
    gives (fun t => t.opRes == .bits 5 && t.rd == ⟨[0xB5], 3, 3⟩) (exec (.readBits 3) (inCall ⟨[0xB5], 0, 0⟩)) = true ∧
      gives (fun t => t.opRes == .bits 0x03FF && t.rd == ⟨[0x01], 7, 23⟩) (exec (.readBits 16) (inCall ⟨[0x80, 0xFF, 0x01], 7, 7⟩)) = true := by decide +kernel

/-- V-B3. -/
theorem test_exec_readBits_suspends :
    gives (fun t => t.opRes == .suspended && t.rd == ⟨[0xB5], 3, 3⟩) (exec (.readBits 6) { State.reset with rd := ⟨[0xB5], 3, 3⟩ }) = true := by decide +kernel

/-- V-B6, V-B7. -/
theorem test_exec_align :
    gives (fun t => t.rd == ⟨[0x03], 0, 8⟩) (exec .alignToByte (inCall ⟨[0x01, 0x03], 3, 3⟩)) = true ∧
      gives (fun t => t.rd == ⟨[0x03], 0, 8⟩) (exec .alignToByte (inCall ⟨[0x03], 0, 8⟩)) = true := by decide +kernel

/-- V-B8. -/
theorem test_exec_feed :
    gives (fun t => t.rd == ⟨[0xAB, 0x01, 0x02], 5, 5⟩) (exec (.feed [0x01, 0x02]) (inCall ⟨[0xAB], 5, 5⟩)) = true := by decide +kernel

/-- R118; V-B3 gives 5. -/
theorem test_exec_avail :
    gives (fun t => t.opRes == .count 5) (exec .avail (inCall ⟨[0xB5], 3, 3⟩)) = true := by decide +kernel

/-- V-H1. -/
theorem test_code_of_lengths :
    codeOf [3, 3, 3, 3, 3, 2, 4, 4] =
      [⟨2, 3, 0⟩, ⟨3, 3, 1⟩, ⟨4, 3, 2⟩, ⟨5, 3, 3⟩, ⟨6, 3, 4⟩, ⟨0, 2, 5⟩, ⟨14, 4, 6⟩, ⟨15, 4, 7⟩] := by decide +kernel

/-- V-H4, V-H6. -/
theorem test_exec_build_accepts :
    gives (fun t => t.opRes == .code [⟨0, 1, 0⟩]) (exec (.build .ll (1 :: List.replicate 287 0)) State.reset) = true ∧
      gives (fun t => t.opRes == .code []) (exec (.build .d (List.replicate 32 0)) State.reset) = true := by decide +kernel

/-- V-H3, V-H5, V-H7 to V-H11. -/
theorem test_exec_build_raises :
    gives (fun t => t.err == some .litlenTree && t.fsm == .failed) (exec (.build .ll ([1, 1, 1] ++ List.replicate 285 0)) State.reset) = true ∧
      gives (fun t => t.err == some .litlenTree) (exec (.build .ll ([1, 2] ++ List.replicate 286 0)) State.reset) = true ∧
      gives (fun t => t.err == some .distTree) (exec (.build .d ([2, 2] ++ List.replicate 30 0)) State.reset) = true ∧
      gives (fun t => t.err == some .clTree) (exec (.build .cl (1 :: List.replicate 18 0)) State.reset) = true ∧
      gives (fun t => t.err == some .clTree) (exec (.build .cl (List.replicate 19 0)) State.reset) = true ∧
      gives (fun t => t.err == some .distTree) (exec (.build .d (List.replicate 32 0)) { State.reset with cfg := { strict := true } }) = true ∧
      gives (fun t => t.err == some .litlenTree) (exec (.build .ll (1 :: List.replicate 287 0)) { State.reset with cfg := { strict := true } }) = true := by decide +kernel

/-- V-H23, V-H25. -/
theorem test_exec_decode :
    gives (fun t => t.opRes == .symbol 6 && t.rd == ⟨[0x07], 4, 4⟩) (exec (.decode (codeOf [3, 3, 3, 3, 3, 2, 4, 4])) (inCall ⟨[0x07], 0, 0⟩)) = true ∧
      gives (fun t => t.opRes == .raised .invalidCode && t.rd.bitpos == 1) (exec (.decode [⟨0, 1, 0⟩]) (inCall ⟨[0x01], 0, 0⟩)) = true := by decide +kernel

/-- V-W1. -/
theorem test_exec_append :
    gives (fun t => t.win == [(65535, 0x41)] && t.wpos == 0 && t.total == 65536 && t.out == [0x41]) (exec (.append 0x41) { State.reset with wpos := 65535, total := 65535 }) = true := by decide +kernel

/-- V-W2, V-W7. -/
theorem test_exec_copyMatch :
    gives (fun t => t.out == [0x61, 0x62, 0x63, 0x61, 0x62] && t.total == 8 && t.wpos == 8) (exec (.copyMatch 3 5) { State.reset with win := [(0, 0x61), (1, 0x62), (2, 0x63)], wpos := 3, total := 3 }) = true ∧
      gives (fun t => t.err == some .distTooFar) (exec (.copyMatch 1 3) State.reset) = true := by decide +kernel

/-- P1: five padding bits before LEN (R151). -/
theorem test_exec_blkStored :
    gives (fun t => t.bfinal && t.rd == ⟨[0x03], 0, 8⟩ && t.phase == .storedHdr) (exec (.blkStored true) (inCall ⟨[0x01, 0x03], 3, 3⟩)) = true := by decide +kernel

/-- X1 and V-F14 (R155). -/
theorem test_exec_blkFixed :
    gives (fun t => t.status == 0x00000012#32 && t.llLen[144]? == some 9 && t.distLen[31]? == some 5) (exec (.blkFixed true) (inCall ⟨[0x4B], 3, 3⟩)) = true := by decide +kernel

/-- R156. -/
theorem test_exec_blkDynamic :
    gives (fun t => t.bfinal == false && t.phase == .dynCounts && t.fsm == .hdr) (exec (.blkDynamic false) (inCall ⟨[0x04], 3, 3⟩)) = true := by decide +kernel

/-- X4. -/
theorem test_exec_blkReserved :
    gives (fun t => t.status == 0x00000104#32 && t.results == [.badData .reservedBtype]) (exec (.blkReserved true) (inCall ⟨[0x67], 3, 3⟩)) = true := by decide +kernel

/-- P1, V-S3. -/
theorem test_exec_storedHdr :
    gives (fun t => t.rem == 3 && t.fsm == .stored && t.phase == .between) (exec (.storedHdr 0x0003 0xFFFC) { inCall ⟨[], 0, 40⟩ with phase := .storedHdr }) = true ∧
      gives (fun t => t.status == 0x00000204#32) (exec (.storedHdr 0x0001 0x0000) { inCall ⟨[], 0, 40⟩ with phase := .storedHdr }) = true := by decide +kernel

/-- V-S5. -/
theorem test_exec_storedByte :
    gives (fun t => t.status == 0x00020011#32 && t.out == [0x61] && t.win == [(0, 0x61)]) (exec (.storedByte 0x61) { inCall ⟨[], 0, 48⟩ with fsm := .stored, rem := 3, bfinal := true }) = true := by decide +kernel

/-- P1, P4. -/
theorem test_exec_storedEnd :
    gives (fun t => t.status == 0x00000033#32 && t.rd.bitpos == 64) (exec .storedEnd { inCall ⟨[], 0, 64⟩ with fsm := .stored, bfinal := true }) = true ∧
      gives (fun t => t.fsm == .hdr) (exec .storedEnd { inCall ⟨[], 0, 56⟩ with fsm := .stored }) = true := by decide +kernel

/-- V-D1, V-D2 (R157). -/
theorem test_exec_dynCounts :
    gives (fun t => t.status == 0x00000304#32) (exec (.dynCounts 30 0 15) { inCall ⟨[], 1, 17⟩ with phase := .dynCounts }) = true ∧
      gives (fun t => t.hdr.nlen == 286 && t.hdr.ndist == 32 && t.hdr.ncode == 19 && t.phase == .clLens) (exec (.dynCounts 29 31 15) { inCall ⟨[], 1, 17⟩ with phase := .dynCounts }) = true := by decide +kernel

/-- The CL lengths of V-D9 or V-D10 but for the last one. -/
def inClLens (cl18 : CodeLen) : State :=
  { inCall ⟨[], 0, 71⟩ with
    phase := .clLens
    hdr := { nlen := 257, ndist := 1, ncode := 18, clLen := (List.replicate 19 0).set 18 cl18, nread := 17, lens := [] } }

/-- V-D9 (CL 18 = 2, CL 1 = 1) is incomplete; P5 (CL 18 = 1, CL 1 = 1) is complete; the eighteenth length is CL 1's (R82). -/
theorem test_exec_clLen :
    gives (fun t => t.status == 0x00000404#32) (exec (.clLen 1) (inClLens 2)) = true ∧
      gives (fun t => t.phase == .clSyms && t.hdr.clLen[1]? == some 1) (exec (.clLen 1) (inClLens 1)) = true := by decide +kernel

/-- R160. -/
theorem test_exec_clSet :
    gives (fun t => t.hdr.lens == [7, 0, 3] && t.phase == .clSyms) (exec (.clSet 3) (inSeq [7, 0])) = true := by decide +kernel

/-- R165 and the order of its checks; the tables as in V-D5, V-D7, V-D8 and V-D12. -/
theorem test_exec_clSet_finishes :
    gives (fun t => t.status == 0x00000704#32) (exec (.clSet 1) (inSeq ([1] ++ List.replicate 256 0))) = true ∧
      gives (fun t => t.status == 0x00000804#32) (exec (.clSet 1) (inSeq ([2] ++ List.replicate 255 0 ++ [2]))) = true ∧
      gives (fun t => t.status == 0x00000904#32) (exec (.clSet 2) (inSeq ([1] ++ List.replicate 255 0 ++ [1]))) = true ∧
      gives (fun t => t.fsm == .body && t.kind == .dynamic && t.distLen == List.replicate 32 0 && t.llLen[256]? == some 1) (exec (.clSet 0) (inSeq ([1] ++ List.replicate 255 0 ++ [1]))) = true := by decide +kernel

/-- V-D3; R161. -/
theorem test_exec_clRep16 :
    gives (fun t => t.status == 0x00000504#32) (exec (.clRep16 0) (inSeq [])) = true ∧
      gives (fun t => t.hdr.lens == [4, 9, 9, 9, 9, 9, 9, 9]) (exec (.clRep16 3) (inSeq [4, 9])) = true := by decide +kernel

/-- R162, R164. -/
theorem test_exec_clZero17 :
    gives (fun t => t.hdr.lens == [5] ++ List.replicate 10 0) (exec (.clZero17 7) (inSeq [5])) = true ∧
      gives (fun t => t.status == 0x00000604#32) (exec (.clZero17 0) (inSeq (List.replicate 256 1))) = true := by decide +kernel

/-- V-D4. -/
theorem test_exec_clZero18 :
    gives (fun t => t.hdr.lens == List.replicate 138 0) (exec (.clZero18 127) (inSeq [])) = true ∧
      gives (fun t => t.status == 0x00000604#32) (exec (.clZero18 110) (inSeq (List.replicate 138 0))) = true := by decide +kernel

/-- R168. -/
theorem test_exec_lit :
    gives (fun t => t.out == [0x61, 0x62, 0x63] && t.win == [(0, 0x61), (1, 0x62), (2, 0x63)] && t.total == 3 && t.wpos == 3) (exec (.lit 0x63) { afterAB with fsm := .body }) = true := by decide +kernel

/-- P2, V-F10. -/
theorem test_exec_eob :
    gives (fun t => t.fsm == .done && t.eof && t.llLen == fixedLL) (exec .eob { afterAB with fsm := .body, llLen := fixedLL }) = true ∧
      gives (fun t => t.status == 0x00000000#32) (exec .eob { afterAB with fsm := .body, bfinal := false }) = true := by decide +kernel

/-- A length symbol holds the length. -/
def holds (i : Instr) (l : Nat) : Bool := gives (fun t => t.mlen == l && t.phase == .dist) (exec i (inCall ⟨[], 0, 0⟩))

/-- A distance symbol's distance is `d`: it is too far when one byte less has been produced, and not when `d` have been. -/
def reaches (i : Instr) (d : Nat) : Bool :=
  gives (fun t => t.err == some .distTooFar && t.total == d - 1) (exec i { State.reset with total := d - 1, mlen := 0 }) &&
    gives (fun t => t.err == none && t.total == d) (exec i { State.reset with total := d, mlen := 0 })

/-- R92's least length of every symbol. -/
theorem test_exec_lengths_least :
    holds .len257 3 = true ∧
      holds .len258 4 = true ∧
      holds .len259 5 = true ∧
      holds .len260 6 = true ∧
      holds .len261 7 = true ∧
      holds .len262 8 = true ∧
      holds .len263 9 = true ∧
      holds .len264 10 = true ∧
      holds (.len265 0) 11 = true ∧
      holds (.len266 0) 13 = true ∧
      holds (.len267 0) 15 = true ∧
      holds (.len268 0) 17 = true ∧
      holds (.len269 0) 19 = true ∧
      holds (.len270 0) 23 = true ∧
      holds (.len271 0) 27 = true ∧
      holds (.len272 0) 31 = true ∧
      holds (.len273 0) 35 = true ∧
      holds (.len274 0) 43 = true ∧
      holds (.len275 0) 51 = true ∧
      holds (.len276 0) 59 = true ∧
      holds (.len277 0) 67 = true ∧
      holds (.len278 0) 83 = true ∧
      holds (.len279 0) 99 = true ∧
      holds (.len280 0) 115 = true ∧
      holds (.len281 0) 131 = true ∧
      holds (.len282 0) 163 = true ∧
      holds (.len283 0) 195 = true ∧
      holds (.len284 0) 227 = true ∧
      holds (.len285 0) 3 = true := by decide +kernel

/-- R92's greatest length of every symbol with an extra field. -/
theorem test_exec_lengths_greatest :
    holds (.len265 1) 12 = true ∧
      holds (.len266 1) 14 = true ∧
      holds (.len267 1) 16 = true ∧
      holds (.len268 1) 18 = true ∧
      holds (.len269 3) 22 = true ∧
      holds (.len270 3) 26 = true ∧
      holds (.len271 3) 30 = true ∧
      holds (.len272 3) 34 = true ∧
      holds (.len273 7) 42 = true ∧
      holds (.len274 7) 50 = true ∧
      holds (.len275 7) 58 = true ∧
      holds (.len276 7) 66 = true ∧
      holds (.len277 15) 82 = true ∧
      holds (.len278 15) 98 = true ∧
      holds (.len279 15) 114 = true ∧
      holds (.len280 15) 130 = true ∧
      holds (.len281 31) 162 = true ∧
      holds (.len282 31) 194 = true ∧
      holds (.len283 31) 226 = true ∧
      holds (.len284 31) 258 = true ∧
      holds (.len285 65535) 65538 = true := by decide +kernel

/-- R93's least distance of every symbol (R142 tells it). -/
theorem test_exec_distances_least :
    reaches .dist0 1 = true ∧
      reaches .dist1 2 = true ∧
      reaches .dist2 3 = true ∧
      reaches .dist3 4 = true ∧
      reaches (.dist4 0) 5 = true ∧
      reaches (.dist5 0) 7 = true ∧
      reaches (.dist6 0) 9 = true ∧
      reaches (.dist7 0) 13 = true ∧
      reaches (.dist8 0) 17 = true ∧
      reaches (.dist9 0) 25 = true ∧
      reaches (.dist10 0) 33 = true ∧
      reaches (.dist11 0) 49 = true ∧
      reaches (.dist12 0) 65 = true ∧
      reaches (.dist13 0) 97 = true ∧
      reaches (.dist14 0) 129 = true ∧
      reaches (.dist15 0) 193 = true ∧
      reaches (.dist16 0) 257 = true ∧
      reaches (.dist17 0) 385 = true ∧
      reaches (.dist18 0) 513 = true ∧
      reaches (.dist19 0) 769 = true ∧
      reaches (.dist20 0) 1025 = true ∧
      reaches (.dist21 0) 1537 = true ∧
      reaches (.dist22 0) 2049 = true ∧
      reaches (.dist23 0) 3073 = true ∧
      reaches (.dist24 0) 4097 = true ∧
      reaches (.dist25 0) 6145 = true ∧
      reaches (.dist26 0) 8193 = true ∧
      reaches (.dist27 0) 12289 = true ∧
      reaches (.dist28 0) 16385 = true ∧
      reaches (.dist29 0) 24577 = true ∧
      reaches (.dist30 0) 32769 = true ∧
      reaches (.dist31 0) 49153 = true := by decide +kernel

/-- R93's greatest distance of every symbol with an extra field. -/
theorem test_exec_distances_greatest :
    reaches (.dist4 1) 6 = true ∧
      reaches (.dist5 1) 8 = true ∧
      reaches (.dist6 3) 12 = true ∧
      reaches (.dist7 3) 16 = true ∧
      reaches (.dist8 7) 24 = true ∧
      reaches (.dist9 7) 32 = true ∧
      reaches (.dist10 15) 48 = true ∧
      reaches (.dist11 15) 64 = true ∧
      reaches (.dist12 31) 96 = true ∧
      reaches (.dist13 31) 128 = true ∧
      reaches (.dist14 63) 192 = true ∧
      reaches (.dist15 63) 256 = true ∧
      reaches (.dist16 127) 384 = true ∧
      reaches (.dist17 127) 512 = true ∧
      reaches (.dist18 255) 768 = true ∧
      reaches (.dist19 255) 1024 = true ∧
      reaches (.dist20 511) 1536 = true ∧
      reaches (.dist21 511) 2048 = true ∧
      reaches (.dist22 1023) 3072 = true ∧
      reaches (.dist23 1023) 4096 = true ∧
      reaches (.dist24 2047) 6144 = true ∧
      reaches (.dist25 2047) 8192 = true ∧
      reaches (.dist26 4095) 12288 = true ∧
      reaches (.dist27 4095) 16384 = true ∧
      reaches (.dist28 8191) 24576 = true ∧
      reaches (.dist29 8191) 32768 = true ∧
      reaches (.dist30 16383) 49152 = true ∧
      reaches (.dist31 16383) 65536 = true := by decide +kernel

/-- P4: MATCH 3, 2 after "ab". -/
theorem test_exec_dist_copies :
    gives (fun t => t.out == [0x61, 0x62, 0x61, 0x62, 0x61] && t.wpos == 5 && t.phase == .between && t.mlen == 0) (exec .dist1 { afterAB with fsm := .body, phase := .dist, mlen := 3 }) = true := by decide +kernel

/-- Log entry 1, in a state no run reaches. -/
theorem test_exec_dist_faults :
    exec .dist0 { State.reset with total := 1, mlen := 3 } = .fault .windowByteNeverWritten := rfl

/-- V-F12, V-F13. -/
theorem test_exec_invalid :
    gives (fun t => t.status == 0x00000B04#32) (exec .invalid286 { inCall ⟨[0x03], 3, 11⟩ with fsm := .body }) = true ∧
      gives (fun t => t.status == 0x00000B04#32) (exec .invalid287 { inCall ⟨[0x03], 3, 11⟩ with fsm := .body }) = true := by decide +kernel

/-- R42, R207. -/
theorem test_exec_reset :
    gives (fun t => t == { State.reset with cfg := { trailing := .ignore } }) (exec .reset { afterAB with cfg := { trailing := .ignore }, results := [.ok []], err := some .clTree, fsm := .failed }) = true := by decide +kernel

/-- R195; X5. -/
theorem test_exec_decompress :
    gives (fun t => t.rd.inq == [0x4B, 0x04] && t.phase == .between && t.results == []) (exec (.decompress [0x4B, 0x04]) State.reset) = true ∧
      gives (fun t => t.status == 0x00000104#32 && t.results == [.badData .sessionFailed]) (exec (.decompress []) { State.reset with fsm := .failed, err := some .reservedBtype }) = true := by decide +kernel

/-- X2, V-T3. -/
theorem test_exec_decompress_ended :
    gives (fun t => t.results == [.ok []] && t.eof) (exec (.decompress []) { State.reset with fsm := .done }) = true ∧
      gives (fun t => t.status == 0x00000D04#32) (exec (.decompress [0x00]) { State.reset with fsm := .done }) = true := by decide +kernel

/-- R255. -/
theorem test_exec_decompress_overlapping :
    exec (.decompress []) (inCall ⟨[], 0, 0⟩) = .refused .overlappingCall := rfl

/-- R206. -/
theorem test_exec_eof :
    gives (fun t => t.results == [.eof true]) (exec .eof { State.reset with fsm := .done }) = true ∧
      gives (fun t => t.results == [.eof false]) (exec .eof State.reset) = true := by decide +kernel

/-- P2, V-T1, V-T2 (R201, R203). -/
theorem test_step_end_of_stream :
    gives (fun t => t.rd == ⟨[], 0, 30⟩ && t.results == [.ok [0x61, 0x62]] && t.phase == .idle) (step { afterAB with fsm := .done, rd := ⟨[0x00], 6, 30⟩ }) = true ∧
      gives (fun t => t.status == 0x00000D04#32 && t.results == [.badData .trailingData]) (step { afterAB with fsm := .done, rd := ⟨[0x00, 0x99], 6, 30⟩ }) = true ∧
      gives (fun t => t.status == 0x00000033#32 && t.results == [.ok [0x61, 0x62]]) (step { afterAB with fsm := .done, rd := ⟨[0x00, 0x99], 6, 30⟩, cfg := { trailing := .ignore } }) = true := by decide +kernel

/-- V-S6: a header cut inside LEN is undone as a whole. -/
theorem test_step_suspends :
    gives (fun t => t.rd == ⟨[0x01, 0x03], 0, 0⟩ && t.bfinal == false && t.results == [.ok []] && t.phase == .idle) (step { inCall ⟨[0x03], 0, 8⟩ with bfinal := true, phase := .storedHdr, snap := some (inCall ⟨[0x01, 0x03], 0, 0⟩).capture }) = true := by decide +kernel

/-! ### Legal states, one for each kind the statements speak of -/

/-- Between calls: "a" has been produced, and two bits of the next header's byte are left from the call before. -/
def legalQuiet : State :=
  { State.reset with
    rd := ⟨[0x80], 6, 14⟩, win := [(0, 0x61)], wpos := 1, total := 1, results := [.ok [0x61]] }

/-- In a call, between units, with the given reader. -/
def legalHdr (rd : Reader) : State :=
  { State.reset with
    rd := rd, win := [(0, 0x61)], wpos := 1, total := 1, out := [0x61], phase := .between }

/-- In a call, in the body of a fixed block, with a length held and the distance next. -/
def legalDist (rd : Reader) : State :=
  State.inUnit .dist { legalHdr ⟨[0x04], 3, 11⟩ with
    rd := ⟨[0x04], 3, 11⟩, fsm := .body, llLen := fixedLL, distLen := fixedD } |> fun s => { s with rd := rd, mlen := 4 }

/-- In a call, in a stored block. -/
def legalStored (rem : BitVec 16) (final : Bool) (rd : Reader) : State :=
  { legalHdr rd with fsm := .stored, rem := rem, bfinal := final }

/-- In a call, in the body of a fixed block. -/
def legalBody (final : Bool) (rd : Reader) : State :=
  { legalHdr rd with fsm := .body, llLen := fixedLL, distLen := fixedD, bfinal := final }

/-- In a call, in the header of a stored block, with LEN and NLEN next. -/
def legalStoredHdr (rd : Reader) : State :=
  State.inUnit .storedHdr (legalHdr ⟨[0x00], 0, 8⟩) |> fun s => { s with rd := rd }

/-- In a call, in a dynamic header that lacks the last of its 258 lengths: LL symbols 0 and 256 have length 1. -/
def legalClSyms (rd : Reader) : State :=
  State.inUnit .clSyms (legalHdr ⟨[0x04], 0, 8⟩) |> fun s =>
    { s with rd := rd, hdr := (inSeq ([1] ++ List.replicate 255 0 ++ [1])).hdr }

/-- In a call, after the final block. -/
def legalEnded (rd : Reader) : State := { legalHdr rd with fsm := .done, bfinal := true }

/-- Between calls, after the final block. -/
def endedSession (p : TrailingPolicy) : State := { State.reset with fsm := .done, cfg := { trailing := p } }

/-- Between calls, failed. -/
def failedSession : State := { State.reset with fsm := .failed, err := some .clTree }

theorem errIff_live {s : State} (he : s.err = none) (hf : s.fsm ≠ .failed) : s.err = none ↔ s.fsm ≠ .failed :=
  ⟨fun _ => hf, fun _ => he⟩

theorem hdr_live : Fsm.hdr ≠ .failed := nofun

theorem stored_live : Fsm.stored ≠ .failed := nofun

theorem body_live : Fsm.body ≠ .failed := nofun

theorem done_live : Fsm.done ≠ .failed := nofun

theorem between_running : Phase.between ≠ .idle := nofun

theorem not_resetNext_running {s : State} (h : s.phase ≠ .idle) : ¬s.resetNext := fun hr => h hr.1

theorem not_resetNext_waiting {s : State} (h : s.calls = []) : ¬s.resetNext := by
  rintro ⟨_, h2⟩
  simp [h] at h2

theorem windowOk_a {s : State} (hw : s.win = [(0, 0x61)]) (hp : s.wpos = 1) (ht : s.total = 1) : WindowOk s := by
  refine ⟨by rw [hp, ht]; rfl, by rw [hw]; rfl, fun a ha => ?_⟩
  have ha0 : a = 0 := by simp only [ht, Config.windowSize] at ha; omega
  rw [hw, ha0]
  rfl

theorem history_a {s : State} (hw : s.win = [(0, 0x61)]) (hp : s.wpos = 1) (ht : s.total = 1)
    (he : s.emitted = [0x61]) : HistoryOk s := by
  refine fun _ => ⟨by rw [he, ht]; rfl, fun k h1 h2 => ?_⟩
  have hk : k = 1 := by simp only [ht, Config.windowSize] at h2; omega
  rw [he, ht, hk, State.recent, hw, hp]
  rfl

theorem windowOk_empty {s : State} (hw : s.win = []) (hp : s.wpos = 0) (ht : s.total = 0) : WindowOk s :=
  ⟨by rw [hp, ht]; rfl, by rw [hw]; rfl, fun a ha => by simp [ht] at ha⟩

theorem fixedLL_length : fixedLL.length = 288 := by decide +kernel

theorem fixed_codes_accepted :
    buildAccepts false .ll fixedLL = true ∧ buildAccepts false .d fixedD = true := by decide +kernel

theorem readerOk_aligned (q : List Byte) (n : Nat) : ReaderOk ⟨q, 0, 8 * n⟩ := ⟨fun _ => rfl, by simp⟩

theorem legalQuiet_inv : Inv legalQuiet where
  reader _ := ⟨by decide, rfl⟩
  emptyAligned := by decide
  window := windowOk_a rfl rfl rfl
  storedAligned := by decide
  doneEmpty := by decide
  errIff := by decide
  llSize := List.length_replicate
  distSize := rfl
  bodyCodes h := by cases h
  idleClean _ := rfl
  unitClean _ := ⟨rfl, rfl, rfl⟩
  callLive h := absurd rfl h
  unitState := by decide
  unitSnap h := by cases h
  storedHdrAligned := by decide
  clLensOk h := by cases h
  clSymsOk h := by cases h
  distOk h := by cases h

theorem legalQuiet_history : HistoryOk legalQuiet := history_a rfl rfl rfl rfl

theorem legalHdr_inv {rd : Reader} (h : ReaderOk rd) : Inv (legalHdr rd) where
  reader _ := h
  emptyAligned := h.1
  window := windowOk_a rfl rfl rfl
  storedAligned h := by cases h
  doneEmpty h := by cases h
  errIff := errIff_live rfl hdr_live
  llSize := List.length_replicate
  distSize := rfl
  bodyCodes h := by cases h
  idleClean h := by cases h
  unitClean _ := ⟨rfl, rfl, rfl⟩
  callLive _ := hdr_live
  unitState h := by cases h
  unitSnap h := by cases h
  storedHdrAligned h := by cases h
  clLensOk h := by cases h
  clSymsOk h := by cases h
  distOk h := by cases h

theorem legalHdr_history (rd : Reader) : HistoryOk (legalHdr rd) := history_a rfl rfl rfl rfl

theorem legalEnded_inv {rd : Reader} (h : rd.inq = [] → rd.bitoff = 0) : Inv (legalEnded rd) where
  reader h := by rcases h with h | h | h <;> cases h
  emptyAligned := h
  window := windowOk_a rfl rfl rfl
  storedAligned h := by cases h
  doneEmpty h := by cases h
  errIff := errIff_live rfl done_live
  llSize := List.length_replicate
  distSize := rfl
  bodyCodes h := by cases h
  idleClean h := by cases h
  unitClean _ := ⟨rfl, rfl, rfl⟩
  callLive _ := done_live
  unitState h := by cases h
  unitSnap h := by cases h
  storedHdrAligned h := by cases h
  clLensOk h := by cases h
  clSymsOk h := by cases h
  distOk h := by cases h

theorem legalDist_inv {rd : Reader} (h : ReaderOk rd) : Inv (legalDist rd) where
  reader _ := h
  emptyAligned := h.1
  window := windowOk_a rfl rfl rfl
  storedAligned h := by cases h
  doneEmpty h := by cases h
  errIff := errIff_live rfl body_live
  llSize := fixedLL_length
  distSize := rfl
  bodyCodes _ := fixed_codes_accepted
  idleClean h := by cases h
  unitClean h := by cases h
  callLive _ := body_live
  unitState _ := rfl
  unitSnap _ := ⟨⟨[0x04], 3, 11⟩, false, ⟨by simp, rfl⟩, rfl⟩
  storedHdrAligned h := by cases h
  clLensOk h := by cases h
  clSymsOk h := by cases h
  distOk _ := by simp [legalDist]

theorem endedSession_inv (p : TrailingPolicy) : Inv (endedSession p) where
  reader h := by rcases h with h | h | h <;> cases h
  emptyAligned _ := rfl
  window := windowOk_empty rfl rfl rfl
  storedAligned h := by cases h
  doneEmpty _ _ := rfl
  errIff := errIff_live rfl done_live
  llSize := List.length_replicate
  distSize := rfl
  bodyCodes h := by cases h
  idleClean _ := rfl
  unitClean _ := ⟨rfl, rfl, rfl⟩
  callLive h := absurd rfl h
  unitState h := by cases h
  unitSnap h := by cases h
  storedHdrAligned h := by cases h
  clLensOk h := by cases h
  clSymsOk h := by cases h
  distOk h := by cases h

theorem failedSession_inv : Inv failedSession where
  reader h := by rcases h with h | h | h <;> cases h
  emptyAligned _ := rfl
  window := windowOk_empty rfl rfl rfl
  storedAligned h := by cases h
  doneEmpty _ h := by cases h
  errIff := by simp [failedSession]
  llSize := List.length_replicate
  distSize := rfl
  bodyCodes h := by cases h
  idleClean _ := rfl
  unitClean _ := ⟨rfl, rfl, rfl⟩
  callLive h := absurd rfl h
  unitState h := by cases h
  unitSnap h := by cases h
  storedHdrAligned h := by cases h
  clLensOk h := by cases h
  clSymsOk h := by cases h
  distOk h := by cases h

theorem clSyms_under_way :
    (inSeq ([1] ++ List.replicate 255 0 ++ [1])).hdr.CountsOk ∧
      (inSeq ([1] ++ List.replicate 255 0 ++ [1])).hdr.lens.length < 257 + 1 ∧ clStdLens.length = 19 ∧
      buildAccepts false .cl clStdLens = true :=
  ⟨by unfold DynHeader.CountsOk; decide +kernel, by decide +kernel, rfl, by decide +kernel⟩

theorem legalStored_inv (rem : BitVec 16) (final : Bool) (q : List Byte) (n : Nat) :
    Inv (legalStored rem final ⟨q, 0, 8 * n⟩) where
  reader _ := readerOk_aligned q n
  emptyAligned := (readerOk_aligned q n).1
  window := windowOk_a rfl rfl rfl
  storedAligned _ := rfl
  doneEmpty h := by cases h
  errIff := errIff_live rfl stored_live
  llSize := List.length_replicate
  distSize := rfl
  bodyCodes h := by cases h
  idleClean h := by cases h
  unitClean _ := ⟨rfl, rfl, rfl⟩
  callLive _ := stored_live
  unitState h := by cases h
  unitSnap h := by cases h
  storedHdrAligned h := by cases h
  clLensOk h := by cases h
  clSymsOk h := by cases h
  distOk h := by cases h

theorem legalBody_inv (final : Bool) {rd : Reader} (h : ReaderOk rd) :
    Inv (legalBody final rd) where
  reader _ := h
  emptyAligned := h.1
  window := windowOk_a rfl rfl rfl
  storedAligned h := by cases h
  doneEmpty h := by cases h
  errIff := errIff_live rfl body_live
  llSize := fixedLL_length
  distSize := rfl
  bodyCodes _ := fixed_codes_accepted
  idleClean h := by cases h
  unitClean _ := ⟨rfl, rfl, rfl⟩
  callLive _ := body_live
  unitState h := by cases h
  unitSnap h := by cases h
  storedHdrAligned h := by cases h
  clLensOk h := by cases h
  clSymsOk h := by cases h
  distOk h := by cases h

theorem legalStoredHdr_inv (q : List Byte) (n : Nat) :
    Inv (legalStoredHdr ⟨q, 0, 8 * n⟩) where
  reader _ := readerOk_aligned q n
  emptyAligned := (readerOk_aligned q n).1
  window := windowOk_a rfl rfl rfl
  storedAligned h := by cases h
  doneEmpty h := by cases h
  errIff := errIff_live rfl hdr_live
  llSize := List.length_replicate
  distSize := rfl
  bodyCodes h := by cases h
  idleClean h := by cases h
  unitClean h := by cases h
  callLive _ := hdr_live
  unitState _ := rfl
  unitSnap _ := ⟨⟨[0x00], 0, 8⟩, false, ⟨by simp, rfl⟩, rfl⟩
  storedHdrAligned _ := rfl
  clLensOk h := by cases h
  clSymsOk h := by cases h
  distOk h := by cases h

theorem legalClSyms_inv {rd : Reader} (h : ReaderOk rd) :
    Inv (legalClSyms rd) where
  reader _ := h
  emptyAligned := h.1
  window := windowOk_a rfl rfl rfl
  storedAligned h := by cases h
  doneEmpty h := by cases h
  errIff := errIff_live rfl hdr_live
  llSize := List.length_replicate
  distSize := rfl
  bodyCodes h := by cases h
  idleClean h := by cases h
  unitClean h := by cases h
  callLive _ := hdr_live
  unitState _ := rfl
  unitSnap _ := ⟨⟨[0x04], 0, 8⟩, false, ⟨by simp, rfl⟩, rfl⟩
  storedHdrAligned h := by cases h
  clLensOk h := by cases h
  clSymsOk _ := clSyms_under_way
  distOk h := by cases h

/-- A window in which the last `n` bytes produced stand, for every `n`: the states of the copies' statements. -/
theorem window_of_every_total (n : Nat) : ∃ s : State, WindowOk s ∧ s.total = n := by
  induction n with
  | zero => exact ⟨State.reset, windowOk_empty rfl rfl rfl, rfl⟩
  | succ n ih =>
    obtain ⟨s, hs, ht⟩ := ih
    exact ⟨s.append 0x61, hs.append 0x61, by rw [State.append_total, ht]⟩

/-! ### Witnesses: the hypotheses of each statement, met together -/

/-- A step from the given state answers a next state. -/
theorem next_of_gives {p : State → Bool} {r : Result} (h : gives p r = true) : ∃ t, r = .next t ∧ p t = true := by
  cases r with
  | next t => exact ⟨t, rfl, h⟩
  | fault e => cases h
  | refused e => cases h

theorem eq_next_of_gives {u : State} {r : Result} (h : gives (fun t => decide (t = u)) r = true) : r = .next u :=
  have ⟨_, ht, hp⟩ := next_of_gives h
  of_decide_eq_true hp ▸ ht

theorem step_of_fixed_header :
    gives (fun t => decide (t.llLen ≠ (legalHdr ⟨[0x4B], 0, 8⟩).llLen) && t.fsm == .body)
      (step (legalHdr ⟨[0x4B], 0, 8⟩)) = true := by decide +kernel

theorem step_of_reserved_header :
    gives (fun t => t.fsm == .failed) (step (legalHdr ⟨[0x67], 0, 8⟩)) = true := by decide +kernel

theorem witness_LegalStateKept : ∃ s t, Inv s ∧ step s = .next t :=
  have ⟨t, ht, _⟩ := next_of_gives step_of_fixed_header
  ⟨_, t, legalHdr_inv (readerOk_aligned _ 1), ht⟩

theorem witness_OutputHistoryKept :
    ∃ s t, Inv s ∧ HistoryOk s ∧ step s = .next t ∧ ¬s.resetNext ∧ t.fsm ≠ .failed ∧ s.emitted ≠ [] :=
  have ⟨t, ht, hp⟩ := next_of_gives step_of_fixed_header
  ⟨_, t, legalHdr_inv (readerOk_aligned _ 1), legalHdr_history _, ht, not_resetNext_running between_running, by
    simp only [Bool.and_eq_true, beq_iff_eq] at hp
    rw [hp.2]
    exact body_live, by decide⟩

theorem witness_OutputHistoryKept_quiet : Inv legalQuiet ∧ HistoryOk legalQuiet ∧ step legalQuiet = .next legalQuiet :=
  ⟨legalQuiet_inv, legalQuiet_history, rfl⟩

theorem witness_LegalStepsNeverStop : Inv legalQuiet := legalQuiet_inv

theorem witness_CallsEnd : Inv (legalHdr ⟨[], 0, 8⟩) ∧ (legalHdr ⟨[], 0, 8⟩).phase ≠ .idle :=
  ⟨legalHdr_inv (readerOk_aligned _ 1), by decide⟩

/-- A session that has been given nothing, for the statements about calls. -/
def fresh : State := { State.reset with results := [.ok []] }

theorem fresh_inv : Inv fresh where
  reader _ := ⟨fun _ => rfl, rfl⟩
  emptyAligned _ := rfl
  window := windowOk_empty rfl rfl rfl
  storedAligned h := by cases h
  doneEmpty _ _ := rfl
  errIff := errIff_live rfl hdr_live
  llSize := List.length_replicate
  distSize := rfl
  bodyCodes h := by cases h
  idleClean _ := rfl
  unitClean _ := ⟨rfl, rfl, rfl⟩
  callLive h := absurd rfl h
  unitState h := by cases h
  unitSnap h := by cases h
  storedHdrAligned h := by cases h
  clLensOk h := by cases h
  clSymsOk h := by cases h
  distOk h := by cases h

theorem fresh_call_nothing :
    Completes (fresh.issue [.decompress []]) { fresh with results := [.ok [], .ok []] } :=
  ⟨2, eq_next_of_gives (by decide +kernel), rfl, rfl⟩

theorem fresh_call_reserved :
    Completes (fresh.issue [.decompress [0x07]])
      { fresh with rd := ⟨[0x07], 3, 3⟩, bfinal := true, fsm := .failed, err := some .reservedBtype,
                   results := [.ok [], .badData .reservedBtype] } :=
  ⟨2, eq_next_of_gives (by decide +kernel), rfl, rfl⟩

theorem fresh_second_call :
    Completes (({ fresh with results := [.ok [], .ok []] } : State).issue [.decompress [0x07]])
      { fresh with rd := ⟨[0x07], 3, 3⟩, bfinal := true, fsm := .failed, err := some .reservedBtype,
                   results := [.ok [], .ok [], .badData .reservedBtype] } :=
  ⟨2, eq_next_of_gives (by decide +kernel), rfl, rfl⟩

theorem witness_ChunkingInvariance_ok :
    Inv fresh ∧ fresh.quiet ∧ fresh.fsm = .hdr ∧
      ∃ s1 t1, Completes (fresh.issue [.decompress []]) s1 ∧ s1.fsm ≠ .failed ∧
        Completes (s1.issue [.decompress [0x07]]) t1 :=
  ⟨fresh_inv, ⟨rfl, rfl⟩, rfl, _, _, fresh_call_nothing, by decide, fresh_second_call⟩

theorem witness_ChunkingInvariance_error :
    Inv fresh ∧ fresh.quiet ∧ fresh.fsm = .hdr ∧
      ∃ s1, Completes (fresh.issue [.decompress [0x07]]) s1 ∧ s1.fsm = .failed :=
  ⟨fresh_inv, ⟨rfl, rfl⟩, rfl, _, fresh_call_reserved, rfl⟩

theorem witness_EmptyCallChangesNothing :
    Inv fresh ∧ fresh.quiet ∧ fresh.fsm = .hdr ∧
      ∃ s1, Completes (fresh.issue [.decompress []]) s1 ∧ s1.fsm ≠ .failed :=
  ⟨fresh_inv, ⟨rfl, rfl⟩, rfl, _, fresh_call_nothing, by decide⟩

theorem witness_EmptyCallChangesNothing_reset : ∃ s u : State, exec .reset s = .next u ∧ u.calls = [] :=
  ⟨fresh, _, rfl, rfl⟩

theorem witness_DecodeOfEncode_uncoded :
    CodeInForceOk .blockHeader ∧ encode .blockHeader (.blkReserved true) = some [true, true, true] ∧
      (Reader.mk [0x67] 0 0).bits = [true, true, true] ++ [false, false, true, true, false] := by
  exact ⟨trivial, by decide, by decide⟩

theorem witness_DecodeOfEncode_coded :
    CodeInForceOk (.clSym (codeOf clStdLens)) ∧
      encode (.clSym (codeOf clStdLens)) (.clZero17 3) = some [true, true, true, true, false, true, true, false] ∧
      (Reader.mk [0x6F] 0 0).bits = [true, true, true, true, false, true, true, false] ++ [] := by
  exact ⟨by unfold CodeInForceOk; decide +kernel, by decide +kernel, by decide⟩

theorem witness_DecodedBitsSpellTheElement :
    CodeInForceOk (.dSym (codeOf fixedD)) ∧
      decode (.dSym (codeOf fixedD)) ⟨[0xFF, 0xFF, 0x07], 0, 0⟩ = .found (.dist31 0x3FFF) ⟨[0x07], 3, 19⟩ := by
  exact ⟨by unfold CodeInForceOk; decide +kernel, by decide +kernel⟩

theorem witness_TruncatedElementSuspends :
    CodeInForceOk .blockHeader ∧
      encode .blockHeader (.blkFixed true) = some ((Reader.mk [0x80] 7 7).bits ++ [true, false]) ∧
      [true, false] ≠ ([] : List Bool) := ⟨trivial, by decide, by decide⟩

theorem witness_DecodeIgnoresLaterBytes :
    decode .storedByte ⟨[0xA7], 0, 0⟩ = .found (.storedByte 0xA7) ⟨[], 0, 8⟩ ∧
      decode (.dSym [⟨0, 1, 0⟩]) ⟨[0x80], 7, 7⟩ = .invalid ⟨[], 0, 8⟩ := by decide

theorem witness_ReadBitsTakesField :
    16 ≤ 8 * [0x12#8, 0x34#8].length - (0#3).toNat ∧ 0 ≤ 8 * ([] : List Byte).length - (0#3).toNat := by decide

theorem witness_ReadBitsSuspends :
    (State.reset.phase = .idle ∧ 8 * State.reset.rd.inq.length - State.reset.rd.bitoff.toNat < 1) ∧
      Inv (legalDist ⟨[], 0, 16⟩) ∧ (legalDist ⟨[], 0, 16⟩).phase.inUnit = true ∧
      8 * (legalDist ⟨[], 0, 16⟩).rd.inq.length - (legalDist ⟨[], 0, 16⟩).rd.bitoff.toNat < 1 :=
  ⟨by decide, legalDist_inv (readerOk_aligned _ 2), rfl, by decide⟩

theorem witness_FeedAppendsBytes :
    (legalQuiet.rd.inq = [] → legalQuiet.rd.bitoff = 0) ∧ (State.reset.rd.inq = [] → State.reset.rd.bitoff = 0) := by
  decide

theorem witness_AlignDiscardsPartialByte : ReaderOk ⟨[0x80], 7, 15⟩ ∧ ReaderOk ⟨[], 0, 16⟩ :=
  ⟨⟨by simp, rfl⟩, readerOk_aligned _ 2⟩

theorem witness_BuildAcceptsConsistentTables_complete : fixedD.length = CodeKind.size .d ∧ TableAccepted true .d fixedD :=
  ⟨rfl, .inl (by decide)⟩

theorem witness_BuildAcceptsConsistentTables_incomplete :
    (1 :: List.replicate 287 (0 : CodeLen)).length = CodeKind.size .ll ∧
      TableAccepted false .ll (1 :: List.replicate 287 0) ∧ TableAccepted false .d (List.replicate 32 0) := by
  refine ⟨by decide +kernel, .inr ⟨by decide +kernel, rfl, .inl ⟨by decide, by decide +kernel, by decide +kernel⟩⟩,
    .inr ⟨by decide, rfl, .inr ⟨rfl, by decide⟩⟩⟩

theorem witness_BuildAcceptsConsistentTables_refused :
    (List.replicate 19 (0 : CodeLen)).length = CodeKind.size .cl ∧ ¬TableAccepted false .cl (List.replicate 19 0) ∧
      ¬TableAccepted true .d (List.replicate 32 0) := by
  unfold TableAccepted; decide

theorem witness_CanonicalAssignment :
    fixedD[31]? = some 5 ∧ (5 : CodeLen) ≠ 0 ∧ (List.replicate 19 (0 : CodeLen))[18]? = some 0 := by decide

theorem witness_BuiltCodesArePrefixCodes :
    fixedD.length = CodeKind.size .d ∧ buildCode false .d fixedD = some (codeOf fixedD) := by decide +kernel

theorem witness_DecodeReadsCodeword :
    Code.wf [⟨0, 1, 7⟩, ⟨2, 2, 8⟩] = true ∧ (⟨2, 2, 8⟩ : Codeword) ∈ ([⟨0, 1, 7⟩, ⟨2, 2, 8⟩] : Code) ∧
      (Reader.mk [0x40] 6 6).bits = Codeword.bits ⟨2, 2, 8⟩ ++ [] := by decide

theorem witness_DecodeOfIncompleteCodes :
    (Reader.mk [0x80] 7 7).bits = true :: [] ∧ (Reader.mk [0x00] 7 7).bits = false :: [] := by decide

theorem witness_CopyMatchCopiesOrRaises_copies :
    (∃ s : State, WindowOk s ∧ 1 ≤ 65536 ∧ 65536 ≤ 65536 ∧ 65536 ≤ s.total) ∧
      ∃ s : State, WindowOk s ∧ 1 ≤ 1 ∧ 1 ≤ 65536 ∧ 1 ≤ s.total :=
  have ⟨s, hs, ht⟩ := window_of_every_total 65536
  have ⟨u, hu, hut⟩ := window_of_every_total 1
  ⟨⟨s, hs, by omega⟩, u, hu, by omega⟩

theorem witness_CopyMatchCopiesOrRaises_raises : State.reset.total < 1 ∧ legalQuiet.total < 2 := by decide

theorem witness_ReservedBlockRaises :
    (legalHdr ⟨[0x67], 0, 8⟩).phase = .between ∧ (legalHdr ⟨[0x67], 0, 8⟩).fsm = .hdr ∧
      (legalHdr ⟨[0x67], 0, 8⟩).rd.bits = true :: true :: true :: [false, false, true, true, false] := by decide

theorem witness_StoredHeaderIsChecked :
    (0xFFFF : BitVec 16) = 0x0000 ^^^ 0xFFFF#16 ∧ (0x0000 : BitVec 16) ≠ 0x0001 ^^^ 0xFFFF#16 := by decide

theorem witness_BlocksEnd : (Instr.storedEnd = .storedEnd ∨ Instr.storedEnd = .eob) ∧ (Instr.eob = .storedEnd ∨ Instr.eob = .eob) :=
  ⟨.inl rfl, .inr rfl⟩

theorem witness_InvalidSymbolsRaise :
    (Instr.invalid286 = .invalid286 ∨ Instr.invalid286 = .invalid287) ∧
      (Instr.invalid287 = .invalid286 ∨ Instr.invalid287 = .invalid287) :=
  ⟨.inl rfl, .inr rfl⟩

/-- For every distance `d` of every distance symbol. -/
theorem witness_DistanceSymbolsCopy (d : Nat) : ∃ s : State, WindowOk s ∧ d ≤ s.total :=
  have ⟨s, hs, ht⟩ := window_of_every_total d
  ⟨s, hs, by omega⟩

theorem witness_DistanceSymbolsTooFar : State.reset.total < 1 ∧ ({ State.reset with total := 65535 } : State).total < 65536 := by
  decide

theorem witness_DynamicCounts : (29 : BitVec 5).toNat ≤ 29 ∧ 30 ≤ (30 : BitVec 5).toNat := by decide

theorem witness_CodeLengthCodeIsBuilt_goes_on :
    ∃ s : State, s.hdr.nread < s.hdr.ncode ∧ s.hdr.ncode ≤ 19 ∧ s.hdr.clLen.length = 19 ∧
      s.hdr.nread + 1 < s.hdr.ncode :=
  ⟨{ inClLens 1 with hdr := { (inClLens 1).hdr with nread := 16 } }, by decide⟩

theorem witness_CodeLengthCodeIsBuilt_last :
    ∀ cl18 : CodeLen, cl18 = 1 ∨ cl18 = 2 →
      (inClLens cl18).hdr.nread < (inClLens cl18).hdr.ncode ∧ (inClLens cl18).hdr.ncode ≤ 19 ∧
        (inClLens cl18).hdr.clLen.length = 19 ∧ (inClLens cl18).hdr.nread + 1 = (inClLens cl18).hdr.ncode ∧
        (cl18 = 1 ↔ kraftSum ((inClLens cl18).hdr.putClLen 1).clLen = 2 ^ 15) := by
  rintro _ (rfl | rfl) <;> decide

theorem witness_CodeLengthSymbolsExtend :
    258 = (inSeq []).hdr.nlen + (inSeq []).hdr.ndist ∧ (inSeq []).hdr.lens.length + 1 < 258 ∧
      (inSeq [7]).hdr.lens = [] ++ [7] ∧ (inSeq [7]).hdr.lens.length + (3 + (3 : BitVec 2).toNat) < 258 ∧
      (inSeq []).hdr.lens.length + (3 + (7 : BitVec 3).toNat) < 258 ∧
      (inSeq []).hdr.lens.length + (11 + (127 : BitVec 7).toNat) < 258 := by decide

theorem witness_CodeLengthRunsAreChecked :
    (inSeq []).hdr.lens = [] ∧ (inSeq (List.replicate 256 1)).hdr.lens ≠ [] ∧
      258 = (inSeq (List.replicate 256 1)).hdr.nlen + (inSeq (List.replicate 256 1)).hdr.ndist ∧
      258 < (inSeq (List.replicate 256 1)).hdr.lens.length + (3 + (0 : BitVec 2).toNat) ∧
      258 < (inSeq (List.replicate 256 1)).hdr.lens.length + (3 + (0 : BitVec 3).toNat) ∧
      258 < (inSeq (List.replicate 248 1)).hdr.lens.length + (11 + (0 : BitVec 7).toNat) := by decide +kernel

/-- The hypotheses about the sequence, for the sequence `sofar` ended by CL_SET `v`. -/
def Finishes (sofar : List CodeLen) (v : CodeLen) : Prop :=
  (inSeq sofar).hdr.CountsOk ∧
    (sofar ++ [v]).length = (inSeq sofar).hdr.nlen + (inSeq sofar).hdr.ndist

/-- The LL table of `sofar` ended by CL_SET, and the D table. -/
def llOf (sofar : List CodeLen) (v : CodeLen) : List CodeLen := (sofar ++ [v]).take 257 ++ List.replicate 31 0

def dOf (sofar : List CodeLen) (v : CodeLen) : List CodeLen := (sofar ++ [v]).drop 257 ++ List.replicate 31 0

theorem finishes_of_length {sofar : List CodeLen} (v : CodeLen) (h : sofar.length = 257) : Finishes sofar v :=
  ⟨by simp [inSeq, DynHeader.CountsOk], by simp [inSeq, h]⟩

theorem witness_DynamicHeaderFinishes_missingEob :
    Finishes (1 :: List.replicate 256 0) 1 ∧ ((1 :: List.replicate 256 0 : List CodeLen) ++ [1])[256]? = some 0 :=
  ⟨finishes_of_length 1 (by decide +kernel), rfl⟩

theorem witness_DynamicHeaderFinishes_litlenTree :
    Finishes (2 :: List.replicate 255 0 ++ [2]) 1 ∧ ((2 :: List.replicate 255 0 ++ [2] : List CodeLen) ++ [1])[256]? ≠ some 0 ∧
      ¬TableAccepted false .ll (llOf (2 :: List.replicate 255 0 ++ [2]) 1) :=
  ⟨finishes_of_length 1 (by decide +kernel), by decide +kernel, by unfold TableAccepted; decide +kernel⟩

theorem witness_DynamicHeaderFinishes_distTree :
    Finishes (1 :: List.replicate 255 0 ++ [1]) 2 ∧ ((1 :: List.replicate 255 0 ++ [1] : List CodeLen) ++ [2])[256]? ≠ some 0 ∧
      TableAccepted false .ll (llOf (1 :: List.replicate 255 0 ++ [1]) 2) ∧
      ¬TableAccepted false .d (dOf (1 :: List.replicate 255 0 ++ [1]) 2) :=
  ⟨finishes_of_length 2 (by decide +kernel), by decide +kernel, .inl (by decide +kernel), by unfold TableAccepted; decide +kernel⟩

theorem witness_DynamicHeaderFinishes_body :
    Finishes (1 :: List.replicate 255 0 ++ [1]) 0 ∧ ((1 :: List.replicate 255 0 ++ [1] : List CodeLen) ++ [0])[256]? ≠ some 0 ∧
      TableAccepted false .ll (llOf (1 :: List.replicate 255 0 ++ [1]) 0) ∧
      TableAccepted false .d (dOf (1 :: List.replicate 255 0 ++ [1]) 0) :=
  ⟨finishes_of_length 0 (by decide +kernel), by decide +kernel, .inl (by decide +kernel),
    .inr ⟨by decide +kernel, rfl, .inr ⟨rfl, by decide +kernel⟩⟩⟩

/-- A run of zeros can end the sequence too. -/
theorem witness_DynamicHeaderFinishes_run :
    (inSeq (1 :: List.replicate 246 0)).hdr.lens.length + (11 + (0 : BitVec 7).toNat) = 257 + 1 := by decide +kernel

theorem witness_DecompressFeedsAndRuns :
    legalQuiet.phase = .idle ∧ legalQuiet.fsm = .hdr ∧ ({ legalQuiet with fsm := .stored } : State).fsm = .stored ∧
      ({ legalQuiet with fsm := .body } : State).fsm = .body := by decide

theorem witness_DecompressOnFailedSession : Inv failedSession ∧ failedSession.phase = .idle ∧ failedSession.fsm = .failed :=
  ⟨failedSession_inv, rfl, rfl⟩

theorem witness_DecompressOnEndedSession :
    (Inv (endedSession .error) ∧ (endedSession .error).phase = .idle ∧ (endedSession .error).fsm = .done ∧
        [0x00] ≠ ([] : List Byte) ∧ (endedSession .error).cfg.trailing = .error) ∧
      Inv (endedSession .ignore) ∧ (endedSession .ignore).fsm = .done ∧ (endedSession .ignore).cfg.trailing = .ignore :=
  ⟨⟨endedSession_inv _, rfl, rfl, by decide, rfl⟩, endedSession_inv _, rfl, rfl⟩

theorem witness_OverlappingCallsHaveNoResult : (legalHdr ⟨[], 0, 8⟩).phase ≠ .idle := by decide

theorem witness_StepRunsDecodedElement :
    (legalHdr ⟨[0x67], 0, 8⟩).phase ≠ .idle ∧ (legalHdr ⟨[0x67], 0, 8⟩).expect = some .blockHeader ∧
      decode .blockHeader (legalHdr ⟨[0x67], 0, 8⟩).rd = .found (.blkReserved true) ⟨[0x67], 3, 11⟩ := by
  exact ⟨by decide, rfl, by decide⟩

theorem witness_StepRunsDecodedElement_between :
    (legalHdr ⟨[], 0, 8⟩).phase = .between ∧ (legalHdr ⟨[], 0, 8⟩).fsm = .hdr ∧
      (legalStored 1 true ⟨[], 0, 8⟩).fsm = .stored ∧ (legalStored 1 true ⟨[], 0, 8⟩).rem ≠ 0 ∧
      (legalStored 0 true ⟨[], 0, 8⟩).fsm = .stored ∧ (legalStored 0 true ⟨[], 0, 8⟩).rem = 0 ∧
      (legalBody true ⟨[], 0, 8⟩).fsm = .body ∧ (legalEnded ⟨[], 0, 8⟩).fsm = .done := by decide

theorem witness_StepRunsDecodedElement_inUnit :
    fresh.phase = .idle ∧ (legalStoredHdr ⟨[], 0, 8⟩).phase = .storedHdr ∧
      ({ legalStoredHdr ⟨[], 0, 8⟩ with phase := .dynCounts } : State).phase = .dynCounts ∧
      (inClLens 1).phase = .clLens ∧ (legalClSyms ⟨[], 0, 8⟩).phase = .clSyms ∧
      (legalDist ⟨[], 0, 16⟩).phase = .dist := by decide

theorem witness_StepServesTheHost :
    legalQuiet.phase = .idle ∧ legalQuiet.calls = [] ∧ (legalQuiet.issue [.reset]).calls = .reset :: [] ∧
      (legalQuiet.issue [.eof]).calls = .eof :: [] ∧
      (legalQuiet.issue [.decompress [0x01]]).calls = .decompress [0x01] :: [] := by decide

theorem witness_SuspendRestoresTheUnit_between :
    Inv (legalHdr ⟨[0x80], 7, 15⟩) ∧ (legalHdr ⟨[0x80], 7, 15⟩).phase = .between ∧
      (legalHdr ⟨[0x80], 7, 15⟩).expect = some .blockHeader ∧
      decode .blockHeader (legalHdr ⟨[0x80], 7, 15⟩).rd = .suspend :=
  ⟨legalHdr_inv ⟨by simp, rfl⟩, rfl, rfl, by decide⟩

theorem witness_SuspendRestoresTheUnit_inUnit :
    Inv (legalDist ⟨[], 0, 16⟩) ∧ (legalDist ⟨[], 0, 16⟩).phase.inUnit = true ∧
      (legalDist ⟨[], 0, 16⟩).expect = some (.dSym (codeOf fixedD)) ∧
      decode (.dSym (codeOf fixedD)) (legalDist ⟨[], 0, 16⟩).rd = .suspend :=
  ⟨legalDist_inv (readerOk_aligned _ 2), rfl, rfl, by decide +kernel⟩

theorem witness_InvalidCodewordRaises :
    ({ legalDist ⟨[0x01], 0, 16⟩ with distLen := List.replicate 32 0 } : State).phase ≠ .idle ∧
      ({ legalDist ⟨[0x01], 0, 16⟩ with distLen := List.replicate 32 0 } : State).expect =
        some (.dSym (codeOf (List.replicate 32 0))) ∧
      decode (.dSym (codeOf (List.replicate 32 0))) ⟨[0x01], 0, 16⟩ = .invalid ⟨[0x01], 0, 16⟩ :=
  ⟨by decide, rfl, by decide +kernel⟩

theorem witness_EndOfStreamReturns :
    (Inv (legalEnded ⟨[0x00], 6, 30⟩) ∧ (legalEnded ⟨[0x00], 6, 30⟩).phase = .between ∧
        (legalEnded ⟨[0x00], 6, 30⟩).fsm = .done ∧ (legalEnded ⟨[0x00], 6, 30⟩).rd.inq.tail = []) ∧
      Inv (legalEnded ⟨[0x00, 0x99], 6, 30⟩) ∧ (legalEnded ⟨[0x00, 0x99], 6, 30⟩).rd.inq.tail ≠ [] ∧
      (legalEnded ⟨[0x00, 0x99], 6, 30⟩).cfg.trailing = .error :=
  ⟨⟨legalEnded_inv (by simp), rfl, rfl, rfl⟩, legalEnded_inv (by simp), by decide, rfl⟩

theorem witness_FailedIsTerminal :
    failedSession.phase = .idle ∧ failedSession.fsm = .failed ∧ ¬failedSession.resetNext ∧
      step failedSession = .next failedSession :=
  ⟨rfl, rfl, not_resetNext_waiting rfl, rfl⟩

theorem witness_NoOtherTransition :
    Inv (legalHdr ⟨[0x4B], 0, 8⟩) ∧ ¬(legalHdr ⟨[0x4B], 0, 8⟩).resetNext ∧
      ∃ t, step (legalHdr ⟨[0x4B], 0, 8⟩) = .next t :=
  have ⟨t, ht, _⟩ := next_of_gives step_of_fixed_header
  ⟨legalHdr_inv (readerOk_aligned _ 1), not_resetNext_running between_running, t, ht⟩

theorem witness_NoOtherTransition_trailing :
    Inv (legalEnded ⟨[0x00, 0x99], 6, 30⟩) ∧ ¬(legalEnded ⟨[0x00, 0x99], 6, 30⟩).resetNext ∧
      gives (fun t => t.fsm == .failed) (step (legalEnded ⟨[0x00, 0x99], 6, 30⟩)) = true :=
  ⟨legalEnded_inv (by simp), not_resetNext_running between_running, by decide +kernel⟩

theorem witness_NoOtherTransition_toStored :
    Inv (legalStoredHdr ⟨[0x03, 0x00, 0xFC, 0xFF], 0, 16⟩) ∧
      ¬(legalStoredHdr ⟨[0x03, 0x00, 0xFC, 0xFF], 0, 16⟩).resetNext ∧
      gives (fun t => t.fsm == .stored) (step (legalStoredHdr ⟨[0x03, 0x00, 0xFC, 0xFF], 0, 16⟩)) = true :=
  ⟨legalStoredHdr_inv _ 2, not_resetNext_running nofun, by decide +kernel⟩

theorem witness_NoOtherTransition_toBody :
    Inv (legalClSyms ⟨[0x00], 0, 16⟩) ∧ ¬(legalClSyms ⟨[0x00], 0, 16⟩).resetNext ∧
      gives (fun t => t.fsm == .body && t.kind == .dynamic) (step (legalClSyms ⟨[0x00], 0, 16⟩)) = true :=
  ⟨legalClSyms_inv (readerOk_aligned _ 2), not_resetNext_running nofun, by decide +kernel⟩

theorem witness_NoOtherTransition_stored (final : Bool) :
    Inv (legalStored 0 final ⟨[], 0, 16⟩) ∧ ¬(legalStored 0 final ⟨[], 0, 16⟩).resetNext ∧
      gives (fun t => t.fsm == if final then .done else .hdr) (step (legalStored 0 final ⟨[], 0, 16⟩)) = true ∧
      Inv (legalStored 1 final ⟨[0x61], 0, 16⟩) ∧
      gives (fun t => t.fsm == .stored && t.rem == 0) (step (legalStored 1 final ⟨[0x61], 0, 16⟩)) = true :=
  ⟨legalStored_inv 0 final _ 2, not_resetNext_running nofun, by cases final <;> decide +kernel,
    legalStored_inv 1 final _ 2, by cases final <;> decide +kernel⟩

theorem witness_NoOtherTransition_body (final : Bool) :
    Inv (legalBody final ⟨[0x00], 0, 16⟩) ∧ ¬(legalBody final ⟨[0x00], 0, 16⟩).resetNext ∧
      gives (fun t => t.fsm == if final then .done else .hdr) (step (legalBody final ⟨[0x00], 0, 16⟩)) = true :=
  ⟨legalBody_inv final (readerOk_aligned _ 2), not_resetNext_running nofun, by cases final <;> decide +kernel⟩

theorem witness_TotalNeverDecreases :
    Inv (legalHdr ⟨[0x4B], 0, 8⟩) ∧ ¬(legalHdr ⟨[0x4B], 0, 8⟩).resetNext ∧
      ∃ t, step (legalHdr ⟨[0x4B], 0, 8⟩) = .next t := witness_NoOtherTransition

theorem witness_CodeTablesChangeOnlyAtHeaders :
    ∃ s t, Inv s ∧ ¬s.resetNext ∧ step s = .next t ∧ t.llLen ≠ s.llLen :=
  have ⟨t, ht, hp⟩ := next_of_gives step_of_fixed_header
  ⟨_, t, legalHdr_inv (readerOk_aligned _ 1), not_resetNext_running between_running, ht, by
    simp only [Bool.and_eq_true, decide_eq_true_eq] at hp
    exact hp.1⟩

theorem witness_ErrorsArePrecise : ∃ s t, Inv s ∧ s.fsm ≠ .failed ∧ step s = .next t ∧ t.fsm = .failed :=
  have ⟨t, ht, hp⟩ := next_of_gives step_of_reserved_header
  ⟨_, t, legalHdr_inv (readerOk_aligned _ 1), by decide, ht, eq_of_beq hp⟩

theorem witness_ParametersNeverChange : step legalQuiet = .next legalQuiet := rfl

theorem witness_MatchExpansionMeansTheMatch :
    (3 ≤ 3 ∧ 3 ≤ 65538 ∧ 1 ≤ 1 ∧ 1 ≤ 65536) ∧ 3 ≤ 65538 ∧ 65538 ≤ 65538 ∧ 1 ≤ 65536 ∧ 65536 ≤ 65536 := by decide

end Sys2Proof.Tests
end

section
/-! Proofs of the statements about the scope: a step between two calls. -/

namespace Sys2Proof.Machine

/-- Between calls and without a waiting transaction a step holds the state (R238). -/
theorem step_idle_nil {s : State} (hp : s.phase = .idle) (hc : s.calls = []) : step s = .next s := by
  simp [step, fetch, hp, hc]

/-- Between calls a step runs the oldest waiting transaction, taken off the queue (R7). -/
theorem step_idle_cons {s : State} {c : HostCall} {cs : List HostCall} (hp : s.phase = .idle) (hc : s.calls = c :: cs) :
    step s = exec c.instr { s with calls := cs } := by
  simp [step, fetch, hp, hc]

/-- Settles O48: the empty queue holds the state, and each transaction is the one case of `step_idle_cons`. -/
theorem stepServesTheHost : Obligations.StepServesTheHost := by
  intro s hp
  refine ⟨step_idle_nil hp, ?reset, ?eof, ?decompress⟩
  case reset => exact fun _ hc => step_idle_cons hp hc
  case eof => exact fun _ hc => step_idle_cons hp hc
  case decompress => exact fun _ _ hc => step_idle_cons hp hc

end Sys2Proof.Machine
end

section
/-! How far a decoding takes the bit reader: by some number of whole bits, and what that keeps of a legal reader. -/

namespace Sys2Proof

/-! ### Bits taken -/

/-- `r'` is `r` with its next `n` bits taken, all of them there (40_bit_reader.md R116, R121). -/
def Reader.Takes (n : Nat) (r r' : Reader) : Prop := n ≤ r.avail ∧ r' = (r.takeBits n).2

theorem Reader.takes_zero (r : Reader) : r.Takes 0 r := ⟨Nat.zero_le _, rfl⟩

theorem Reader.avail_takeBits {n : Nat} {r : Reader} (h : n ≤ r.avail) : (r.takeBits n).2.avail + n = r.avail := by
  have hlen := congrArg List.length (Reader.takeBits_spec h).2.1
  simp only [Reader.bits_length, List.length_append, List.length_map, List.length_range] at hlen
  omega

theorem Reader.takeBits_add (m n : Nat) (r : Reader) :
    (r.takeBits (m + n)).2 = ((r.takeBits m).2.takeBits n).2 := by
  induction m generalizing r with
  | zero => simp [Reader.takeBits]
  | succ m ih => rw [Nat.succ_add]; exact ih r.takeBit.2

theorem Reader.Takes.trans {m n : Nat} {r r' r'' : Reader} (h : r.Takes m r') (h' : r'.Takes n r'') :
    r.Takes (m + n) r'' := by
  obtain ⟨hm, rfl⟩ := h
  obtain ⟨hn, rfl⟩ := h'
  have := Reader.avail_takeBits hm
  exact ⟨by omega, (Reader.takeBits_add m n r).symm⟩

/-- READ_BITS that does not suspend takes its `n` bits (R116). -/
theorem Reader.takes_of_readBits {n : Nat} {r : Reader} {p : Nat × Reader} (h : r.readBits n = some p) :
    r.Takes n p.2 := by
  rcases Reader.readBits_cases n r with ⟨-, hr⟩ | ⟨hn, hr⟩
  · simp [hr] at h
  · rw [hr] at h
    cases h
    exact ⟨hn, rfl⟩

theorem Reader.Takes.bitpos {n : Nat} {r r' : Reader} (h : r.Takes n r') : r'.bitpos = r.bitpos + n := by
  obtain ⟨hn, rfl⟩ := h
  exact (Reader.takeBits_spec hn).2.2

/-! ### The decoder takes bits -/

/-- DECODE, with a symbol or without one, has taken some of the bits (41_huffman.md R132). -/
theorem decodeSymFrom_takes {T : Code} {fuel c l : Nat} {r r' : Reader}
    (h : (∃ s, decodeSymFrom T fuel c l r = .sym s r') ∨ decodeSymFrom T fuel c l r = .invalid r') :
    ∃ n, r.Takes n r' := by
  induction fuel generalizing c l r with
  | zero =>
    obtain ⟨s, hs⟩ | hi := h
    · simp [decodeSymFrom] at hs
    · cases hi
      exact ⟨0, Reader.takes_zero _⟩
  | succ fuel ih =>
    obtain ⟨s, -, hd⟩ | ⟨-, -, hd⟩ | ⟨-, -, -, hd⟩ | ⟨b, r₁, -, -, hb, hd⟩ := decodeSymFrom_succ T fuel c l r <;>
      rw [hd] at h
    · obtain ⟨_, hs⟩ | hi := h
      · cases hs
        exact ⟨0, Reader.takes_zero _⟩
      · cases hi
    · obtain ⟨_, hs⟩ | hi := h
      · cases hs
      · cases hi
        exact ⟨0, Reader.takes_zero _⟩
    · obtain ⟨_, hs⟩ | hi := h
      · cases hs
      · cases hi
    · obtain ⟨n, hn⟩ := ih h
      exact ⟨1 + n, (Reader.takes_of_readBits hb).trans hn⟩

/-- A coded element found is the one of some symbol and extra field, and has taken bits (30_encoding.md R88). -/
theorem decodeCoded_found {T : Code} {ext : Nat → Nat} {elem : Nat → Nat → Option Instr} {r r' : Reader} {i : Instr}
    (h : decodeCoded T ext elem r = .found i r') : (∃ s x, elem s x = some i) ∧ ∃ n, r.Takes n r' := by
  unfold decodeCoded at h
  split at h
  · cases h
  · cases h
  · next s r₁ hs =>
    obtain ⟨m, hm⟩ := decodeSymFrom_takes (.inl ⟨s, hs⟩)
    split at h
    · cases h
    · next x r₂ hx =>
      split at h
      · next hi =>
        cases h
        exact ⟨⟨s, x, hi⟩, _, hm.trans (Reader.takes_of_readBits hx)⟩
      · cases h

/-- Bits that are no coded element have been taken up to the detecting one (60_exceptions.md R227). -/
theorem decodeCoded_invalid {T : Code} {ext : Nat → Nat} {elem : Nat → Nat → Option Instr} {r r' : Reader}
    (h : decodeCoded T ext elem r = .invalid r') : ∃ n, r.Takes n r' := by
  unfold decodeCoded at h
  split at h
  · cases h
  · next r₁ hi =>
    cases h
    exact decodeSymFrom_takes (.inr hi)
  · next s r₁ hs =>
    obtain ⟨m, hm⟩ := decodeSymFrom_takes (.inl ⟨s, hs⟩)
    split at h
    · cases h
    · next x r₂ hx =>
      split at h
      · cases h
      · cases h
        exact ⟨_, hm.trans (Reader.takes_of_readBits hx)⟩

theorem Decoded.ofRead_found {x : Option (Instr × Reader)} {i : Instr} {r : Reader} :
    Decoded.ofRead x = .found i r ↔ x = some (i, r) := by
  cases x <;> simp [Decoded.ofRead, Prod.ext_iff]

theorem Decoded.ofRead_ne_invalid {x : Option (Instr × Reader)} {r : Reader} : Decoded.ofRead x ≠ .invalid r := by
  cases x <;> simp [Decoded.ofRead]

/-- A header found (R76). -/
theorem decodeHeader_found {r r' : Reader} {i : Instr} (h : decodeHeader r = .found i r') :
    (∃ f t, i = headerInstr f t) ∧ r.Takes 3 r' := by
  obtain ⟨f, hf, hbind⟩ := Option.bind_eq_some_iff.mp (Decoded.ofRead_found.mp h)
  obtain ⟨t, ht, he⟩ := Option.map_eq_some_iff.mp hbind
  cases he
  exact ⟨⟨_, _, rfl⟩, (Reader.takes_of_readBits hf).trans (Reader.takes_of_readBits ht)⟩

/-- LEN and NLEN found (R79). -/
theorem decodeStoredHdr_found {r r' : Reader} {i : Instr} (h : decodeStoredHdr r = .found i r') :
    (∃ l n, i = .storedHdr l n) ∧ r.Takes 32 r' := by
  obtain ⟨l, hl, hbind⟩ := Option.bind_eq_some_iff.mp (Decoded.ofRead_found.mp h)
  obtain ⟨n, hn, he⟩ := Option.map_eq_some_iff.mp hbind
  cases he
  exact ⟨⟨_, _, rfl⟩, (Reader.takes_of_readBits hl).trans (Reader.takes_of_readBits hn)⟩

/-- A data byte found (43_block_decoder.md R153). -/
theorem decodeStoredByte_found {r r' : Reader} {i : Instr} (h : decodeStoredByte r = .found i r') :
    (∃ b, i = .storedByte b) ∧ r.Takes 8 r' := by
  obtain ⟨b, hb, he⟩ := Option.map_eq_some_iff.mp (Decoded.ofRead_found.mp h)
  cases he
  exact ⟨⟨_, rfl⟩, Reader.takes_of_readBits hb⟩

/-- The counts found (R81). -/
theorem decodeDynCounts_found {r r' : Reader} {i : Instr} (h : decodeDynCounts r = .found i r') :
    (∃ a b c, i = .dynCounts a b c) ∧ r.Takes 14 r' := by
  obtain ⟨a, ha, hbind⟩ := Option.bind_eq_some_iff.mp (Decoded.ofRead_found.mp h)
  obtain ⟨b, hb, hbind⟩ := Option.bind_eq_some_iff.mp hbind
  obtain ⟨c, hc, he⟩ := Option.map_eq_some_iff.mp hbind
  cases he
  exact ⟨⟨_, _, _, rfl⟩,
    ((Reader.takes_of_readBits ha).trans (Reader.takes_of_readBits hb)).trans (Reader.takes_of_readBits hc)⟩

/-- A CL length found (R83). -/
theorem decodeClLen_found {r r' : Reader} {i : Instr} (h : decodeClLen r = .found i r') :
    (∃ l, i = .clLen l) ∧ r.Takes 3 r' := by
  obtain ⟨l, hl, he⟩ := Option.map_eq_some_iff.mp (Decoded.ofRead_found.mp h)
  cases he
  exact ⟨⟨_, rfl⟩, Reader.takes_of_readBits hl⟩

/-- Whatever the format, an element found has taken bits of the stream, and no more (30_encoding.md R100). -/
theorem decode_found_takes {e : Expect} {i : Instr} {r r' : Reader} (h : decode e r = .found i r') :
    ∃ n, r.Takes n r' := by
  cases e with
  | blockHeader => exact ⟨3, (decodeHeader_found h).2⟩
  | storedHdr => exact ⟨32, (decodeStoredHdr_found h).2⟩
  | storedByte => exact ⟨8, (decodeStoredByte_found h).2⟩
  | storedEnd => cases h; exact ⟨0, Reader.takes_zero _⟩
  | dynCounts => exact ⟨14, (decodeDynCounts_found h).2⟩
  | clLen => exact ⟨3, (decodeClLen_found h).2⟩
  | clSym T | llSym T | dSym T => exact (decodeCoded_found h).2

/-- Bits that are no codeword have been taken, and no more (R227). -/
theorem decode_invalid_takes {e : Expect} {r r' : Reader} (h : decode e r = .invalid r') : ∃ n, r.Takes n r' := by
  cases e with
  | clSym T | llSym T | dSym T => exact decodeCoded_invalid h
  | storedEnd => cases h
  | blockHeader | storedHdr | storedByte | dynCounts | clLen => exact absurd h Decoded.ofRead_ne_invalid

end Sys2Proof

namespace Sys2Proof.Machine

/-! ### Legal readers -/

theorem ReaderOk.takeBit {r : Reader} (h : ReaderOk r) (hq : r.inq ≠ []) : ReaderOk r.takeBit.2 := by
  obtain ⟨hempty, hpos⟩ := h
  refine ⟨Reader.takeBit_emptyAligned hempty, ?_⟩
  rw [Reader.takeBit_bitpos hq, Reader.takeBit_bitoff hq, BitVec.toNat_add, ← hpos]
  simp

/-- Bits taken keep the reader legal (10_state.md R22, R23). -/
theorem ReaderOk.takes {n : Nat} {r r' : Reader} (h : ReaderOk r) (ht : r.Takes n r') : ReaderOk r' := by
  obtain ⟨hn, rfl⟩ := ht
  induction n generalizing r with
  | zero => exact h
  | succ n ih =>
    have hq := Reader.inq_ne_nil_of_avail hn
    have := Reader.avail_takeBit hq
    exact ih (h.takeBit hq) (by omega)

/-- Whole bytes taken leave the reader at the boundary it stood at. -/
theorem ReaderOk.aligned_of_takes {n : Nat} {r r' : Reader} (h : ReaderOk r) (ht : r.Takes n r') (h8 : n % 8 = 0)
    (h0 : r.bitoff = 0) : r'.bitoff = 0 := by
  have hpos := (h.takes ht).2
  rw [ht.bitpos, Nat.add_mod, h.2, h0, h8] at hpos
  exact BitVec.eq_of_toNat_eq hpos.symm

theorem ReaderOk.align {r : Reader} (h : ReaderOk r) : ReaderOk r.align := by
  refine ⟨fun _ => r.align_bitoff, ?_⟩
  rw [Reader.align_bitoff]
  unfold Reader.align
  obtain ⟨-, hpos⟩ := h
  split
  · next h0 => rw [hpos, h0]
  · have := r.bitoff.isLt
    simp only [BitVec.ofNat_eq_ofNat, BitVec.toNat_ofNat]
    omega

/-- FEED keeps the reader legal (40_bit_reader.md R115). -/
theorem ReaderOk.feed {r : Reader} (chunk : List Byte) (h : ReaderOk r) : ReaderOk (r.feed chunk) :=
  ⟨fun hq => h.1 (List.append_eq_nil_iff.mp hq).1, h.2⟩

end Sys2Proof.Machine
end

section
/-! What an element of the stream can do, said once: the outcomes of the elements of each format, and that a decoded
element has one of them. -/

namespace Sys2Proof.Machine

/-- A dynamic header's sequence with more lengths at its end (43_block_decoder.md R159). -/
def DynHeader.append (h : DynHeader) (vs : List CodeLen) : DynHeader := { h with lens := h.lens ++ vs }

/-- What the element of format `e` that runs in `u` can make of it: one constructor per outcome (43_block_decoder.md).
`u` has the element's bits taken and its unit's rollback point recorded. -/
inductive ElemStep (u : State) : Expect → State → Prop
  /-- R151. -/
  | storedBlock (f : Bool) : ElemStep u .blockHeader { u with bfinal := f, rd := u.rd.align, phase := .storedHdr }
  /-- R155. -/
  | fixedBlock (f : Bool) :
    ElemStep u .blockHeader
      (State.commit { u with bfinal := f, llLen := fixedLL, distLen := fixedD, kind := .fixed, fsm := .body })
  /-- R156. -/
  | dynamicBlock (f : Bool) : ElemStep u .blockHeader { u with bfinal := f, phase := .dynCounts }
  /-- R166. -/
  | reservedBlock (f : Bool) : ElemStep u .blockHeader (State.raise .reservedBtype { u with bfinal := f })
  /-- R152. -/
  | storedBegins (len : BitVec 16) : ElemStep u .storedHdr (State.commit { u with rem := len, fsm := .stored })
  /-- R152: the complement check fails. -/
  | storedMismatch : ElemStep u .storedHdr (u.raise .storedNlen)
  /-- R153. -/
  | storedByte (b : Byte) : ElemStep u .storedByte (State.commit { u.append b with rem := u.rem - 1 })
  /-- R154. -/
  | storedEnds : ElemStep u .storedEnd u.blockEnd.commit
  /-- R157, R158. -/
  | counts (hlit hdist : BitVec 5) (hclen : BitVec 4) (h : nlenOf hlit ≤ Config.maxNlen) :
    ElemStep u .dynCounts { u with
      hdr := { DynHeader.blank with nlen := nlenOf hlit, ndist := ndistOf hdist, ncode := ncodeOf hclen }
      phase := .clLens }
  /-- R157: too many LL lengths. -/
  | countsRefused : ElemStep u .dynCounts (u.raise .hlitRange)
  /-- R158: more CL lengths are to come. -/
  | clLen (l : BitVec 3) (h : (u.hdr.putClLen l).nread < (u.hdr.putClLen l).ncode) :
    ElemStep u .clLen { u with hdr := u.hdr.putClLen l, phase := .clLens }
  /-- R158: the CL code is built. -/
  | clLenLast (l : BitVec 3) (h : buildAccepts u.cfg.strict .cl (u.hdr.putClLen l).clLen = true) :
    ElemStep u .clLen { u with hdr := u.hdr.putClLen l, phase := .clSyms }
  /-- R158: the CL code is not complete. -/
  | clLenRefused (l : BitVec 3) : ElemStep u .clLen (State.raise .clTree { u with hdr := u.hdr.putClLen l })
  /-- R159 to R163: lengths are appended and more are to come. -/
  | clSym (T : Code) (vs : List CodeLen) (h : (u.hdr.append vs).lens.length < u.hdr.nlen + u.hdr.ndist) :
    ElemStep u (.clSym T) { u with hdr := u.hdr.append vs, phase := .clSyms }
  /-- R165: the sequence is complete and both of its tables are accepted. -/
  | clSymLast (T : Code) (vs : List CodeLen) (h : u.hdr.nlen + u.hdr.ndist ≤ (u.hdr.append vs).lens.length)
    (hll : buildAccepts u.cfg.strict .ll (u.hdr.append vs).newLL = true)
    (hd : buildAccepts u.cfg.strict .d (u.hdr.append vs).newD = true) :
    ElemStep u (.clSym T) (State.commit { u with
      hdr := u.hdr.append vs, llLen := (u.hdr.append vs).newLL, distLen := (u.hdr.append vs).newD, kind := .dynamic,
      fsm := .body })
  /-- R161, R164, R165: a check of a CL symbol or of the complete sequence fails. -/
  | clSymRefused (T : Code) (vs : List CodeLen) (c : Cause) :
    ElemStep u (.clSym T) (State.raise c { u with hdr := u.hdr.append vs })
  /-- R168. -/
  | literal (T : Code) (b : Byte) : ElemStep u (.llSym T) (u.append b).commit
  /-- R169. -/
  | blockEnds (T : Code) : ElemStep u (.llSym T) u.blockEnd.commit
  /-- R170, R171. -/
  | length (T : Code) (l : Nat) (hmin : 3 ≤ l) (hmax : l ≤ 65538) :
    ElemStep u (.llSym T) { u with mlen := l, phase := .dist }
  /-- R173. -/
  | invalidSym (T : Code) : ElemStep u (.llSym T) (u.raise .invalidLitlenSym)
  /-- R170, 42_window.md R141. -/
  | copy (T : Code) (d : Nat) (v : State) (h : copyBytes d u.mlen u = some v) : ElemStep u (.dSym T) v.commit
  /-- 42_window.md R142. -/
  | tooFar (T : Code) : ElemStep u (.dSym T) (u.raise .distTooFar)

/-! ### Headers and stored blocks -/

theorem elemStep_headerInstr {u t : State} (f : Bool) (ty : Nat) (hx : exec (headerInstr f ty) u = .next t) :
    ElemStep u .blockHeader t := by
  match ty with
  | 0 => cases hx; exact .storedBlock f
  | 1 => cases hx; exact .fixedBlock f
  | 2 => cases hx; exact .dynamicBlock f
  | _ + 3 => cases hx; exact .reservedBlock f

theorem elemStep_storedHdr {u t : State} {len nlen : BitVec 16} (hx : execStoredHdr len nlen u = .next t) :
    ElemStep u .storedHdr t := by
  unfold execStoredHdr at hx
  split at hx
  · cases hx; exact .storedBegins len
  · cases hx; exact .storedMismatch

/-! ### Dynamic headers -/

theorem elemStep_dynCounts {u t : State} {hlit hdist : BitVec 5} {hclen : BitVec 4}
    (hx : execDynCounts hlit hdist hclen u = .next t) : ElemStep u .dynCounts t := by
  unfold execDynCounts at hx
  split at hx
  · cases hx; exact .countsRefused
  · next h => cases hx; exact .counts hlit hdist hclen (Nat.le_of_not_lt h)

theorem elemStep_clLen {u t : State} {l : BitVec 3} (hx : execClLen l u = .next t) : ElemStep u .clLen t := by
  unfold execClLen at hx
  dsimp only at hx
  split at hx
  · next h => cases hx; exact .clLen l h
  · split at hx
    · next h => cases hx; exact .clLenLast l h
    · cases hx; exact .clLenRefused l

/-- A CL symbol that a check stops before it appends a length. -/
theorem elemStep_clSym_raise (u : State) (T : Code) (c : Cause) : ElemStep u (.clSym T) (u.raise c) := by
  simpa [DynHeader.append] using ElemStep.clSymRefused (u := u) T [] c

theorem elemStep_pushLens (u : State) (T : Code) (vs : List CodeLen) : ElemStep u (.clSym T) (u.pushLens vs) := by
  unfold State.pushLens
  dsimp only
  split
  · next h => exact .clSym T vs h
  · next h =>
    obtain ⟨-, he⟩ | ⟨-, -, he⟩ | ⟨-, -, -, he⟩ | ⟨-, hll, hd, he⟩ :=
      State.dynFinish_cases { u with hdr := u.hdr.append vs }
    · exact he ▸ .clSymRefused T vs .missingEob
    · exact he ▸ .clSymRefused T vs .litlenTree
    · exact he ▸ .clSymRefused T vs .distTree
    · exact he ▸ .clSymLast T vs (Nat.le_of_not_lt h) hll hd

theorem elemStep_pushRun (u : State) (T : Code) (r : Nat) (v : CodeLen) : ElemStep u (.clSym T) (u.pushRun r v) := by
  obtain ⟨-, he⟩ | ⟨-, he⟩ := State.pushRun_cases r v u
  · exact he ▸ elemStep_clSym_raise u T .clOverrun
  · exact he ▸ elemStep_pushLens u T _

/-- The elements CL symbols have (30_encoding.md R84). -/
theorem clInstr_cases {s x : Nat} {i : Instr} (h : clInstr s x = some i) :
    (∃ v, i = .clSet v) ∨ (∃ e, i = .clRep16 e) ∨ (∃ e, i = .clZero17 e) ∨ ∃ e, i = .clZero18 e := by
  unfold clInstr at h
  split at h
  · cases h; exact .inr (.inl ⟨_, rfl⟩)
  · cases h; exact .inr (.inr (.inl ⟨_, rfl⟩))
  · cases h; exact .inr (.inr (.inr ⟨_, rfl⟩))
  · split at h
    · cases h; exact .inl ⟨_, rfl⟩
    · cases h

theorem elemStep_clInstr {u t : State} {T : Code} {s x : Nat} {i : Instr} (h : clInstr s x = some i)
    (hx : exec i u = .next t) : ElemStep u (.clSym T) t := by
  obtain ⟨v, rfl⟩ | ⟨e, rfl⟩ | ⟨e, rfl⟩ | ⟨e, rfl⟩ := clInstr_cases h
  · cases hx; exact elemStep_pushLens u T [v]
  · change execClRep16 e u = .next t at hx
    unfold execClRep16 at hx
    split at hx
    · cases hx; exact elemStep_clSym_raise u T .clRepeatNoPrev
    · cases hx; exact elemStep_pushRun u T _ _
  · cases hx; exact elemStep_pushRun u T _ _
  · cases hx; exact elemStep_pushRun u T _ _

/-! ### Bodies -/

/-- The lengths that an LL symbol's range holds lie in COPY_MATCH's range (30_encoding.md R92, 42_window.md R141). -/
theorem matchLength_bounds {s x : Nat} (hs : 257 ≤ s) (hs' : s ≤ 285) (hx : x < 2 ^ lext s) :
    3 ≤ matchLength s x ∧ matchLength s x ≤ 65538 := by
  have htable : ∀ p ∈ lengthTable, 3 ≤ p.2 ∧ p.2 + 2 ^ p.1 ≤ 65539 := by decide
  have hi : s - 257 < lengthTable.length := by simp only [lengthTable, List.length_cons, List.length_nil]; omega
  have hrow := htable _ (List.getElem_mem hi)
  simp only [matchLength, lbase, lext, List.getD_eq_getElem _ _ hi] at hx ⊢
  omega

/-- Every element of `lenInstr` holds a length of its symbol's range (30_encoding.md R92, R170). -/
theorem lengthHeld_of_lenInstr {s x : Nat} {i : Instr} (h : lenInstr s x = some i) :
    ∃ e, 257 ≤ s ∧ s ≤ 285 ∧ e < 2 ^ lext s ∧ LengthHeld i (matchLength s e) := by
  unfold lenInstr at h
  split at h <;> cases h
  case h_1 | h_2 | h_3 | h_4 | h_5 | h_6 | h_7 | h_8 => exact ⟨0, by decide, by decide, by decide, fun _ => rfl⟩
  all_goals exact ⟨_, by decide, by decide, BitVec.isLt _, fun _ => rfl⟩

theorem elemStep_llInstr {u t : State} {T : Code} {s x : Nat} {i : Instr} (h : llInstr s x = some i)
    (hx : exec i u = .next t) : ElemStep u (.llSym T) t := by
  unfold llInstr at h
  split at h
  · cases h; cases hx; exact .literal T _
  split at h
  · cases h; cases hx; exact .blockEnds T
  split at h
  · cases h; cases hx; exact .invalidSym T
  split at h
  · cases h; cases hx; exact .invalidSym T
  obtain ⟨e, hs, hs', he, hl⟩ := lengthHeld_of_lenInstr h
  obtain ⟨hmin, hmax⟩ := matchLength_bounds hs hs' he
  rw [hl u] at hx
  cases hx
  exact .length T _ hmin hmax

/-- Every element of `distInstr` runs the copy of its symbol (R93, R170). -/
theorem exec_distInstr {d x : Nat} {i : Instr} (h : distInstr d x = some i) :
    ∃ e, ∀ s, exec i s = distanceElem d e s := by
  unfold distInstr at h
  split at h <;> cases h
  case h_1 | h_2 | h_3 | h_4 => exact ⟨0, fun _ => rfl⟩
  all_goals exact ⟨_, fun _ => rfl⟩

theorem elemStep_distInstr {u t : State} {T : Code} {d x : Nat} {i : Instr} (h : distInstr d x = some i)
    (hx : exec i u = .next t) : ElemStep u (.dSym T) t := by
  obtain ⟨e, he⟩ := exec_distInstr h
  rw [he, distanceElem] at hx
  obtain ⟨-, hc⟩ | ⟨-, -, hc⟩ | ⟨v, -, hv, hc⟩ := copyMatchThen_cases (matchDistance d e) u.mlen State.commit u <;>
    rw [hc] at hx <;> cases hx
  · exact .tooFar T
  · exact .copy T _ v hv

/-- A decoded element that answers a next state has one of its format's outcomes. -/
theorem elemStep_of_found {e : Expect} {i : Instr} {r r' : Reader} {u t : State} (hd : decode e r = .found i r')
    (hx : exec i u = .next t) : ElemStep u e t := by
  cases e with
  | blockHeader =>
    obtain ⟨⟨f, ty, rfl⟩, -⟩ := decodeHeader_found hd
    exact elemStep_headerInstr f ty hx
  | storedHdr =>
    obtain ⟨⟨l, n, rfl⟩, -⟩ := decodeStoredHdr_found hd
    exact elemStep_storedHdr hx
  | storedByte =>
    obtain ⟨⟨b, rfl⟩, -⟩ := decodeStoredByte_found hd
    cases hx
    exact .storedByte b
  | storedEnd =>
    cases hd
    cases hx
    exact .storedEnds
  | dynCounts =>
    obtain ⟨⟨a, b, c, rfl⟩, -⟩ := decodeDynCounts_found hd
    exact elemStep_dynCounts hx
  | clLen =>
    obtain ⟨⟨l, rfl⟩, -⟩ := decodeClLen_found hd
    exact elemStep_clLen hx
  | clSym T =>
    obtain ⟨⟨s, x, hi⟩, -⟩ := decodeCoded_found hd
    exact elemStep_clInstr hi hx
  | llSym T =>
    obtain ⟨⟨s, x, hi⟩, -⟩ := decodeCoded_found hd
    exact elemStep_llInstr hi hx
  | dSym T =>
    obtain ⟨⟨s, x, hi⟩, -⟩ := decodeCoded_found hd
    exact elemStep_distInstr hi hx

end Sys2Proof.Machine
end

section
/-! The legal states (10_state.md R41) are kept by every step: two ways to build `Inv`, outside a unit and inside one,
and the outcomes of a step brought to them. -/

namespace Sys2Proof.Machine

/-! ### Building a legal state -/

/-- What a legal state has in every control state and every phase (10_state.md R41 items 1, 2, 5; R28, R29, R69). -/
structure SessionOk (s : State) : Prop where
  emptyAligned : s.rd.inq = [] → s.rd.bitoff = 0
  window : WindowOk s
  errIff : s.err = none ↔ s.fsm ≠ .failed
  llSize : s.llLen.length = 288
  distSize : s.distLen.length = 32

/-- The codes in force in BODY are ones BUILD accepts (R30). -/
def CodesOk (s : State) : Prop :=
  s.fsm = .body →
    buildAccepts s.cfg.strict .ll s.llLen = true ∧ buildAccepts s.cfg.strict .d s.distLen = true

theorem Inv.session {s : State} (h : Inv s) : SessionOk s :=
  ⟨h.emptyAligned, h.window, h.errIff, h.llSize, h.distSize⟩

/-- A legal state outside a unit: no call runs, or one stands between two units of a session that has not failed. -/
theorem SessionOk.inv_outside {s : State} (h : SessionOk s)
    (hphase : s.phase = .idle ∧ s.out = [] ∧ (s.fsm = .done → s.rd.inq = []) ∨ s.phase = .between ∧ s.fsm ≠ .failed)
    (hclean : s.snap = none ∧ s.hdr = DynHeader.blank ∧ s.mlen = 0)
    (hreader : s.fsm = .hdr ∨ s.fsm = .stored ∨ s.fsm = .body → ReaderOk s.rd)
    (hstored : s.fsm = .stored → s.rd.bitoff = 0) (hcodes : CodesOk s) : Inv s := by
  have hout : ∀ p, s.phase = p → p.inUnit ≠ true := by
    rintro p rfl
    rcases hphase with ⟨hp, -⟩ | ⟨hp, -⟩ <;> simp [hp, Phase.inUnit]
  exact {
    reader := hreader
    emptyAligned := h.emptyAligned
    window := h.window
    storedAligned := hstored
    doneEmpty := by rcases hphase with ⟨-, -, hd⟩ | ⟨hp, -⟩ <;> simp_all
    errIff := h.errIff
    llSize := h.llSize
    distSize := h.distSize
    bodyCodes := hcodes
    idleClean := by rcases hphase with ⟨-, ho, -⟩ | ⟨hp, -⟩ <;> simp_all
    unitClean := fun _ => hclean
    callLive := by rcases hphase with ⟨hp, -, -⟩ | ⟨-, hf⟩ <;> simp_all
    unitState := fun hin => absurd hin (hout _ rfl)
    unitSnap := fun hin => absurd hin (hout _ rfl)
    storedHdrAligned := fun hp => absurd rfl (hout _ hp)
    clLensOk := fun hp => absurd rfl (hout _ hp)
    clSymsOk := fun hp => absurd rfl (hout _ hp)
    distOk := fun hp => absurd rfl (hout _ hp) }

/-- What the phase `p` inside a unit holds (R151, R158, R159, R171). -/
def UnitData (p : Phase) (s : State) : Prop :=
  match p with
  | .idle => False
  | .between => False
  | .storedHdr => s.rd.bitoff = 0
  | .dynCounts => True
  | .clLens => s.hdr.CountsOk ∧ s.hdr.nread < s.hdr.ncode ∧ s.hdr.clLen.length = 19 ∧ s.hdr.lens = []
  | .clSyms =>
    s.hdr.CountsOk ∧ s.hdr.lens.length < s.hdr.nlen + s.hdr.ndist ∧ s.hdr.clLen.length = 19 ∧
      buildAccepts s.cfg.strict .cl s.hdr.clLen = true
  | .dist => 3 ≤ s.mlen ∧ s.mlen ≤ 65538

/-- A state in which an element runs, its bits taken: a call runs on a session that decodes, and a legal rollback point
is held from which only the reader and `bfinal` differ (10_state.md R39, 44_fsm_host.md R192). -/
structure Running (s : State) : Prop extends SessionOk s where
  call : s.phase ≠ .idle
  live : s.fsm = .hdr ∨ s.fsm = .stored ∨ s.fsm = .body
  reader : ReaderOk s.rd
  codes : CodesOk s
  point : ∃ rd f, ReaderOk rd ∧ (s.fsm = .stored → rd.bitoff = 0) ∧
    s.snap = some { s.capture with rd := rd, bfinal := f }

theorem Running.ne_failed {s : State} (h : Running s) : s.fsm ≠ .failed := by
  rcases h.live with hf | hf | hf <;> simp [hf]

theorem Running.ne_done {s : State} (h : Running s) : s.fsm ≠ .done := by
  rcases h.live with hf | hf | hf <;> simp [hf]

/-- A legal state inside a unit, in the unit's own control state. -/
theorem Running.inv_inside {s : State} (h : Running s) (hfsm : s.fsm = s.phase.unitFsm)
    (hdata : UnitData s.phase s) : Inv s where
  reader := fun _ => h.reader
  emptyAligned := h.emptyAligned
  window := h.window
  storedAligned := by cases hp : s.phase <;> simp [hfsm, hp, Phase.unitFsm]
  doneEmpty := fun hp => absurd hp h.call
  errIff := h.errIff
  llSize := h.llSize
  distSize := h.distSize
  bodyCodes := h.codes
  idleClean := fun hp => absurd hp h.call
  unitClean := by cases hp : s.phase <;> simp_all [UnitData, Phase.inUnit]
  callLive := fun _ => h.ne_failed
  unitState := fun _ => hfsm
  unitSnap := fun _ => by
    obtain ⟨rd, f, hrd, -, hsnap⟩ := h.point
    exact ⟨rd, f, hrd, hsnap⟩
  storedHdrAligned := fun hp => by rwa [hp] at hdata
  clLensOk := fun hp => by rwa [hp] at hdata
  clSymsOk := fun hp => by rwa [hp] at hdata
  distOk := fun hp => by rwa [hp] at hdata

/-- An element that leaves the unit under way writes the reader, `bfinal`, the transient registers and the phase. -/
theorem Running.inv_unitGoesOn {s : State} {rd : Reader} {f : Bool} {hdr : DynHeader} {mlen : Nat} {p : Phase}
    (h : Running s) (hrd : ReaderOk rd) (hfsm : s.fsm = p.unitFsm)
    (hdata : UnitData p { s with rd := rd, bfinal := f, hdr := hdr, mlen := mlen, phase := p }) :
    Inv { s with rd := rd, bfinal := f, hdr := hdr, mlen := mlen, phase := p } :=
  Running.inv_inside
    ⟨⟨hrd.1, h.window, h.errIff, h.llSize, h.distSize⟩, by rintro rfl; exact hdata, h.live, hrd, h.codes, h.point⟩ hfsm
    hdata

/-! ### The shared ends of an element -/

/-- A raise in a call leaves a legal failed session (60_exceptions.md R225, R230). -/
theorem SessionOk.inv_raise {s : State} (h : SessionOk s) (hp : s.phase ≠ .idle) (c : Cause) : Inv (s.raise c) := by
  have hs : SessionOk (s.raise c) := by
    refine ⟨by simpa using h.emptyAligned, by simpa [WindowOk] using h.window, ?_, by simpa using h.llSize,
      by simpa using h.distSize⟩
    have := h.errIff
    by_cases hf : s.fsm = .failed <;> simp_all
  exact hs.inv_outside (.inl (by simp)) (by simp [hp]) (by simp) (by simp) (by simp [CodesOk])

/-- A raise of an element that has written `bfinal` or the header under way. -/
theorem Running.inv_raise {s : State} {f : Bool} {hdr : DynHeader} (h : Running s) (c : Cause) :
    Inv (State.raise c { s with bfinal := f, hdr := hdr }) :=
  SessionOk.inv_raise (s := { s with bfinal := f, hdr := hdr })
    ⟨h.emptyAligned, h.window, h.errIff, h.llSize, h.distSize⟩ h.call c

/-- A unit that commits leaves a legal state between two units (44_fsm_host.md R191). -/
theorem SessionOk.inv_commit {s : State} (h : SessionOk s) (hf : s.fsm ≠ .failed) (hr : ReaderOk s.rd)
    (hst : s.fsm = .stored → s.rd.bitoff = 0) (hc : CodesOk s) : Inv s.commit :=
  SessionOk.inv_outside (s := s.commit) ⟨h.emptyAligned, h.window, h.errIff, h.llSize, h.distSize⟩ (.inr ⟨rfl, hf⟩)
    ⟨rfl, rfl, rfl⟩ (fun _ => hr) hst hc

/-- An element that ends a block leaves a legal state (43_block_decoder.md R154, R169). -/
theorem Running.inv_blockEnd {s : State} (h : Running s) : Inv s.blockEnd.commit := by
  have herr : s.blockEnd.err = none := h.errIff.mpr h.ne_failed
  have hfsm : s.blockEnd.fsm = .done ∨ s.blockEnd.fsm = .hdr := by cases hb : s.bfinal <;> simp [hb]
  rcases hfsm with hf | hf <;>
    exact SessionOk.inv_commit ⟨h.emptyAligned, h.window, iff_of_true herr (by rw [hf]; nofun), h.llSize, h.distSize⟩
      (by rw [hf]; nofun) h.reader (by rw [hf]; nofun) (by rw [CodesOk, hf]; nofun)

/-- A suspension goes back to the rollback point and ends the call (44_fsm_host.md R192). -/
theorem Running.inv_suspend {s : State} (h : Running s) : Inv s.suspend := by
  obtain ⟨rd, f, hrd, hst, hsnap⟩ := h.point
  rw [State.suspend_running h.call hsnap]
  exact SessionOk.inv_outside ⟨hrd.1, h.window, h.errIff, h.llSize, h.distSize⟩
    (.inl ⟨rfl, rfl, fun hd => absurd hd h.ne_done⟩) ⟨rfl, rfl, rfl⟩ (fun _ => hrd) hst h.codes

/-- TRAILING on an ended session whose input is empty ends the call in a legal state (R201, R203). -/
theorem SessionOk.inv_finish {s : State} (h : SessionOk s) (hp : s.phase ≠ .idle) (hf : s.fsm = .done)
    (hq : s.rd.inq = []) (bytes : List Byte) : Inv (s.finish bytes) := by
  obtain ⟨-, he⟩ | ⟨-, -, he⟩ := s.finish_cases bytes <;> rw [he]
  · have hs : SessionOk (s.endCall (.ok s.out)) :=
      ⟨by simpa using h.emptyAligned, by simpa [WindowOk] using h.window, by simpa using h.errIff,
        by simpa using h.llSize, by simpa using h.distSize⟩
    exact hs.inv_outside (.inl (by simp [hq])) (by simp [hp]) (by simp [hf]) (by simp [hf]) (by simp [CodesOk, hf])
  · exact h.inv_raise hp .trailingData

theorem WindowOk.copyBytes {d l : Nat} {s t : State} (h : WindowOk s) (hc : copyBytes d l s = some t) : WindowOk t := by
  induction l generalizing s with
  | zero => cases hc; exact h
  | succ l ih =>
    obtain ⟨b, -, hb⟩ := Option.bind_eq_some_iff.mp hc
    exact ih (h.append b) hb

/-- A copy keeps what every phase has. -/
theorem SessionOk.copyBytes {d l : Nat} {s t : State} (h : SessionOk s) (hc : copyBytes d l s = some t) :
    SessionOk t := by
  have hw := h.window.copyBytes hc
  rw [copyBytes_frame hc] at hw ⊢
  exact ⟨h.emptyAligned, hw, h.errIff, h.llSize, h.distSize⟩

theorem SessionOk.append {s : State} (h : SessionOk s) (b : Byte) : SessionOk (s.append b) :=
  ⟨h.emptyAligned, h.window.append b, h.errIff, h.llSize, h.distSize⟩

/-! ### The state in which an element runs -/

/-- The phase in which an element of a format is next (30_encoding.md R100). -/
def phaseOf : Expect → Phase
  | .storedHdr => .storedHdr
  | .dynCounts => .dynCounts
  | .clLen => .clLens
  | .clSym _ => .clSyms
  | .dSym _ => .dist
  | .blockHeader | .storedByte | .storedEnd | .llSym _ => .between

/-- The control state in which an element of a format is next (44_fsm_host.md R191). -/
def fsmOf : Expect → Fsm
  | .blockHeader | .storedHdr | .dynCounts | .clLen | .clSym _ => .hdr
  | .storedByte | .storedEnd => .stored
  | .llSym _ | .dSym _ => .body

/-- In a legal state the format of the next element fixes the phase and the control state. -/
theorem Inv.phase_fsm_of_expect {s : State} {e : Expect} (h : Inv s) (he : s.expect = some e) :
    s.phase = phaseOf e ∧ s.fsm = fsmOf e := by
  have hunit := h.unitState
  unfold State.expect at he
  cases hp : s.phase with
  | idle => simp [hp] at he
  | between =>
    cases hf : s.fsm with
    | hdr | body => simp only [hp, hf, Option.some.injEq] at he; subst he; exact ⟨rfl, rfl⟩
    | stored =>
      simp only [hp, hf, Option.some.injEq] at he
      subst he
      split <;> exact ⟨rfl, rfl⟩
    | done | failed => simp [hp, hf] at he
  | storedHdr | dynCounts | clLens | clSyms | dist =>
    simp only [hp, Option.some.injEq] at he
    subst he
    exact ⟨rfl, hunit (by rw [hp]; rfl) |>.trans (by rw [hp]; rfl)⟩

theorem fsmOf_live (e : Expect) : fsmOf e = .hdr ∨ fsmOf e = .stored ∨ fsmOf e = .body := by cases e <;> simp [fsmOf]

theorem phaseOf_ne_idle (e : Expect) : phaseOf e ≠ .idle := by cases e <;> simp [phaseOf]

theorem fsmOf_ne_stored {e : Expect} (hb : phaseOf e ≠ .between) : fsmOf e ≠ .stored := by
  cases e <;> simp_all [phaseOf, fsmOf]

/-- The next element of a legal state runs in a `Running` state, whatever reader its decoding leaves. -/
theorem Inv.running {s : State} {e : Expect} {r : Reader} (h : Inv s) (he : s.expect = some e) (hr : ReaderOk r) :
    Running { s.enterUnit with rd := r } := by
  obtain ⟨hp, hf⟩ := h.phase_fsm_of_expect he
  have hlive : s.fsm = .hdr ∨ s.fsm = .stored ∨ s.fsm = .body := hf ▸ fsmOf_live e
  have hcall : s.phase ≠ .idle := hp ▸ phaseOf_ne_idle e
  refine ⟨⟨hr.1, by simpa [WindowOk] using h.window, by simpa using h.errIff, by simpa using h.llSize,
    by simpa using h.distSize⟩, by simpa using hcall, by simpa using hlive, hr,
    by simpa [CodesOk] using h.bodyCodes, ?_⟩
  by_cases hb : s.phase = .between
  · exact ⟨s.rd, s.bfinal, h.reader hlive, by simpa using h.storedAligned, by simp [hb, State.capture]⟩
  · have hin : s.phase.inUnit = true := by cases hs : s.phase <;> simp_all [Phase.inUnit]
    obtain ⟨rd, f, hrd, hsnap⟩ := h.unitSnap hin
    exact ⟨rd, f, hrd, fun hs => absurd (by simpa [hf] using hs) (fsmOf_ne_stored (hp ▸ hb)),
      by simp [hb, hsnap, State.capture]⟩

/-- The next element of a legal state that suspends has its unit entered and no bits taken. -/
theorem Inv.running_enterUnit {s : State} {e : Expect} (h : Inv s) (he : s.expect = some e) : Running s.enterUnit :=
  h.running (r := s.enterUnit.rd) he <| by
    obtain ⟨-, hf⟩ := h.phase_fsm_of_expect he
    simpa using h.reader (hf ▸ fsmOf_live e)

/-- What a phase inside a unit holds it still holds when its element's bits are taken. -/
theorem Inv.unitData_running {s : State} {e : Expect} {i : Instr} {r : Reader} (h : Inv s) (he : s.expect = some e)
    (hd : decode e s.rd = .found i r) (hb : phaseOf e ≠ .between) :
    UnitData (phaseOf e) { s.enterUnit with rd := r } := by
  obtain ⟨hp, hf⟩ := h.phase_fsm_of_expect he
  have hlive : s.fsm = .hdr ∨ s.fsm = .stored ∨ s.fsm = .body := hf ▸ fsmOf_live e
  cases e with
  | storedHdr => exact (h.reader hlive).aligned_of_takes (decodeStoredHdr_found hd).2 rfl (h.storedHdrAligned hp)
  | dynCounts => trivial
  | clLen => simpa [UnitData, phaseOf] using h.clLensOk hp
  | clSym T => simpa [UnitData, phaseOf] using h.clSymsOk hp
  | dSym T => simpa [UnitData, phaseOf] using h.distOk hp
  | blockHeader | storedByte | storedEnd | llSym T => exact absurd rfl hb

/-- Inside a stored block the elements leave the reader at a byte boundary (10_state.md R41 item 3). -/
theorem Inv.storedAligned_running {s : State} {e : Expect} {i : Instr} {r : Reader} (h : Inv s) (he : s.expect = some e)
    (hd : decode e s.rd = .found i r) (hs : fsmOf e = .stored) : r.bitoff = 0 := by
  obtain ⟨-, hf⟩ := h.phase_fsm_of_expect he
  have h0 := h.storedAligned (hf.trans hs)
  cases e with
  | storedByte => exact (h.reader (hf ▸ fsmOf_live _)).aligned_of_takes (decodeStoredByte_found hd).2 rfl h0
  | storedEnd => cases hd; exact h0
  | _ => cases hs

/-! ### The elements -/

theorem fixedLL_length : fixedLL.length = 288 := by
  simp only [fixedLL, List.length_append, List.length_replicate]

theorem fixedD_length : fixedD.length = 32 := List.length_replicate

/-- BUILD accepts the fixed lengths: their codes are complete (30_encoding.md R89, R91). -/
theorem buildAccepts_fixed (strict : Bool) :
    buildAccepts strict .ll fixedLL = true ∧ buildAccepts strict .d fixedD = true := by
  cases strict <;> decide +kernel

theorem DynHeader.newLL_length {h : DynHeader} (hc : h.CountsOk) (hl : h.nlen + h.ndist ≤ h.lens.length) :
    h.newLL.length = 288 := by
  obtain ⟨-, hn, -⟩ := hc
  simp only [DynHeader.newLL, List.length_append, List.length_take, List.length_replicate]
  omega

theorem DynHeader.newD_length {h : DynHeader} (hc : h.CountsOk) (hl : h.nlen + h.ndist ≤ h.lens.length) :
    h.newD.length = 32 := by
  obtain ⟨-, -, -, hn, -⟩ := hc
  simp only [DynHeader.newD, List.length_append, List.length_take, List.length_drop, List.length_replicate]
  omega

@[simp] theorem DynHeader.putClLen_length (h : DynHeader) (l : BitVec 3) :
    (h.putClLen l).clLen.length = h.clLen.length :=
  List.length_set

/-- The counts that passed their check are in range (30_encoding.md R81, 43_block_decoder.md R157). -/
theorem countsOk_of_fields {hlit hdist : BitVec 5} {hclen : BitVec 4} (h : nlenOf hlit ≤ Config.maxNlen)
    (d : DynHeader) :
    DynHeader.CountsOk { d with nlen := nlenOf hlit, ndist := ndistOf hdist, ncode := ncodeOf hclen } := by
  have hd := hdist.isLt
  have hc := hclen.isLt
  simp only [DynHeader.CountsOk, nlenOf, ndistOf, ncodeOf, Config.maxNlen] at h ⊢
  omega

/-- Every outcome of an element that runs where its format is next is a legal state. -/
theorem ElemStep.inv {u t : State} {e : Expect} (h : ElemStep u e t) (hu : Running u) (hf : u.fsm = fsmOf e)
    (hdata : phaseOf e ≠ .between → UnitData (phaseOf e) u) (hst : fsmOf e = .stored → u.rd.bitoff = 0) : Inv t := by
  have herr : u.err = none := hu.errIff.mpr hu.ne_failed
  cases h with
  | storedBlock f => exact hu.inv_unitGoesOn hu.reader.align hf u.rd.align_bitoff
  | fixedBlock f =>
    exact SessionOk.inv_commit ⟨hu.emptyAligned, hu.window, iff_of_true herr nofun, fixedLL_length, fixedD_length⟩ nofun
      hu.reader nofun fun _ => buildAccepts_fixed _
  | dynamicBlock f => exact hu.inv_unitGoesOn hu.reader hf trivial
  | storedBegins len =>
    exact SessionOk.inv_commit ⟨hu.emptyAligned, hu.window, iff_of_true herr nofun, hu.llSize, hu.distSize⟩ nofun
      hu.reader (fun _ => hdata nofun) nofun
  | storedByte b =>
    exact SessionOk.inv_commit (s := { u.append b with rem := u.rem - 1 })
      ⟨hu.emptyAligned, hu.window.append b, hu.errIff, hu.llSize, hu.distSize⟩ hu.ne_failed hu.reader
      (fun _ => hst rfl) hu.codes
  | counts hlit hdist hclen h =>
    exact hu.inv_unitGoesOn hu.reader hf ⟨countsOk_of_fields h _, Nat.succ_pos _, rfl, rfl⟩
  | clLen l h =>
    obtain ⟨hcounts, -, hlen, hlens⟩ := hdata nofun
    exact hu.inv_unitGoesOn hu.reader hf ⟨hcounts, h, u.hdr.putClLen_length l ▸ hlen, hlens⟩
  | clLenLast l h =>
    obtain ⟨hcounts, -, hlen, hlens⟩ := hdata nofun
    refine hu.inv_unitGoesOn hu.reader hf ⟨hcounts, ?_, u.hdr.putClLen_length l ▸ hlen, h⟩
    obtain ⟨hn, -⟩ := hcounts
    simp only [DynHeader.putClLen, hlens, List.length_nil]
    omega
  | clSym T vs h =>
    obtain ⟨hcounts, -, hlen, hacc⟩ := hdata nofun
    exact hu.inv_unitGoesOn hu.reader hf ⟨hcounts, h, hlen, hacc⟩
  | clSymLast T vs h hll hd =>
    obtain ⟨hcounts, -⟩ := hdata nofun
    exact SessionOk.inv_commit
      ⟨hu.emptyAligned, hu.window, iff_of_true herr nofun, DynHeader.newLL_length hcounts h,
        DynHeader.newD_length hcounts h⟩
      nofun hu.reader nofun fun _ => ⟨hll, hd⟩
  | literal T b =>
    exact (hu.append b).inv_commit hu.ne_failed hu.reader (by simp [hf, fsmOf]) hu.codes
  | length T l hmin hmax => exact hu.inv_unitGoesOn hu.reader hf ⟨hmin, hmax⟩
  | copy T d v h =>
    have hv := hu.toSessionOk.copyBytes h
    rw [copyBytes_frame h] at hv ⊢
    exact hv.inv_commit hu.ne_failed hu.reader (by simp [hf, fsmOf]) hu.codes
  | storedEnds | blockEnds => exact hu.inv_blockEnd
  | reservedBlock | storedMismatch | countsRefused | clLenRefused | clSymRefused | invalidSym | tooFar =>
    exact hu.inv_raise _

/-! ### The host's transactions -/

/-- RESET answers a legal state (10_state.md R42), whatever the parameters and the waiting transactions. -/
theorem inv_reset_with (cfg : Params) (calls : List HostCall) : Inv { State.reset with cfg := cfg, calls := calls } :=
  SessionOk.inv_outside
    ⟨fun _ => rfl, ⟨rfl, rfl, fun a ha => absurd (lt_min_iff.mp ha).1 (Nat.not_lt_zero a)⟩, iff_of_true rfl nofun,
      List.length_replicate, List.length_replicate⟩
    (.inl ⟨rfl, rfl, nofun⟩) ⟨rfl, rfl, rfl⟩ (fun _ => ⟨fun _ => rfl, rfl⟩) nofun nofun

/-- What a DECOMPRESS that begins can do (44_fsm_host.md R195 to R197). -/
theorem execDecompress_cases {chunk : List Byte} {s t : State} (h : execDecompress chunk s = .next t) :
    (s.phase = .idle ∧ s.fsm = .failed ∧ t = s.beginCall.raise .sessionFailed) ∨
      (s.phase = .idle ∧ s.fsm = .done ∧ t = s.beginCall.finish chunk) ∨
      (s.phase = .idle ∧ (s.fsm = .hdr ∨ s.fsm = .stored ∨ s.fsm = .body) ∧
        t = { s.beginCall with rd := s.rd.feed chunk }) := by
  unfold execDecompress at h
  split at h
  · cases h
  · next hp =>
    split at h <;> cases h <;> next hf => simp [not_not.mp hp, hf]

/-- A transaction that begins in a legal state between calls leaves a legal state. -/
theorem Inv.exec_call {s t : State} (h : Inv s) (hp : s.phase = .idle) (c : HostCall) (cs : List HostCall)
    (hx : exec c.instr { s with calls := cs } = .next t) : Inv t := by
  obtain ⟨hempty, hwin, herr, hll, hdist⟩ := h.session
  have hclean := h.unitClean (by simp [hp, Phase.inUnit])
  cases c with
  | reset => cases hx; exact inv_reset_with _ _
  | eof =>
    cases hx
    exact SessionOk.inv_outside ⟨hempty, hwin, herr, hll, hdist⟩ (.inl ⟨hp, h.idleClean hp, h.doneEmpty hp⟩) hclean
      h.reader h.storedAligned h.bodyCodes
  | decompress chunk =>
    have hbegin : SessionOk (State.beginCall { s with calls := cs }) := ⟨hempty, hwin, herr, hll, hdist⟩
    obtain ⟨-, -, rfl⟩ | ⟨-, hf, rfl⟩ | ⟨-, hf, rfl⟩ := execDecompress_cases hx
    · exact hbegin.inv_raise nofun _
    · exact hbegin.inv_finish nofun hf (h.doneEmpty hp hf) _
    · have hr : ReaderOk (s.rd.feed chunk) := (h.reader hf).feed chunk
      have hne : s.fsm ≠ .failed := by rintro hd; simp [hd] at hf
      exact SessionOk.inv_outside ⟨hr.1, hwin, herr, hll, hdist⟩ (.inr ⟨rfl, hne⟩) hclean (fun _ => hr) h.storedAligned
        h.bodyCodes

/-- Settles O3, over the ways a step answers a next state (`step_cases`). -/
theorem legalStateKept : Obligations.LegalStateKept := by
  intro s t h hstep
  obtain ⟨-, -, rfl⟩ | ⟨c, cs, hp, -, hx⟩ | ⟨e, i, r, -, he, hd, hx⟩ | ⟨e, -, he, -, rfl⟩ | ⟨e, r, -, he, hd, rfl⟩ |
    ⟨hp, -, hf, rfl⟩ | ⟨hp, -, -, rfl⟩ := step_cases hstep
  · exact h
  · exact h.exec_call hp c cs hx
  · obtain ⟨-, hf⟩ := h.phase_fsm_of_expect he
    obtain ⟨n, hn⟩ := decode_found_takes hd
    have hr := (h.reader (hf ▸ fsmOf_live e)).takes hn
    exact (elemStep_of_found hd hx).inv (h.running he hr) (by simpa using hf) (h.unitData_running he hd)
      (h.storedAligned_running he hd)
  · exact (h.running_enterUnit he).inv_suspend
  · obtain ⟨-, hf⟩ := h.phase_fsm_of_expect he
    obtain ⟨n, hn⟩ := decode_invalid_takes hd
    exact (h.running he ((h.reader (hf ▸ fsmOf_live e)).takes hn)).inv_raise _
  · exact SessionOk.inv_finish (s := { s with rd := { s.rd with inq := [], bitoff := 0 } })
      ⟨fun _ => rfl, h.window, h.errIff, h.llSize, h.distSize⟩ hp hf rfl _
  · exact h.session.inv_raise hp _

end Sys2Proof.Machine
end

section
/-! What a step leaves alone: the parameters (10_state.md R43), and `total` never falls (R41 item 6). -/

namespace Sys2Proof.Machine

@[simp] theorem State.suspend_cfg (s : State) : s.suspend.cfg = s.cfg := by
  unfold State.suspend
  split <;> simp

@[simp] theorem State.finish_cfg (bytes : List Byte) (s : State) : (s.finish bytes).cfg = s.cfg := by
  obtain ⟨-, he⟩ | ⟨-, -, he⟩ := s.finish_cases bytes <;> simp [he]

@[simp] theorem State.finish_total (bytes : List Byte) (s : State) : (s.finish bytes).total = s.total := by
  obtain ⟨-, he⟩ | ⟨-, -, he⟩ := s.finish_cases bytes <;> simp [he]

@[simp] theorem State.endOfStream_cfg (s : State) : s.endOfStream.cfg = s.cfg := State.finish_cfg _ _

@[simp] theorem State.endOfStream_total (s : State) : s.endOfStream.total = s.total := State.finish_total _ _

/-! ### The parameters -/

theorem ElemStep.cfg {u t : State} {e : Expect} (h : ElemStep u e t) : t.cfg = u.cfg := by
  cases h with
  | copy T d v h => rw [State.commit_cfg, copyBytes_frame h]
  | _ => simp

/-- A transaction keeps the parameters, RESET too (log entry 6). -/
theorem exec_call_cfg {c : HostCall} {s t : State} (h : exec c.instr s = .next t) : t.cfg = s.cfg := by
  cases c with
  | reset | eof => cases h; rfl
  | decompress chunk =>
    obtain ⟨-, -, rfl⟩ | ⟨-, -, rfl⟩ | ⟨-, -, rfl⟩ := execDecompress_cases h <;> simp

/-- Settles O57, over the ways a step answers a next state (`step_cases`). -/
theorem parametersNeverChange : Obligations.ParametersNeverChange := by
  intro s t hstep
  obtain ⟨-, -, rfl⟩ | ⟨c, cs, -, -, hx⟩ | ⟨e, i, r, -, -, hd, hx⟩ | ⟨e, -, -, -, rfl⟩ | ⟨e, r, -, -, -, rfl⟩ |
    ⟨-, -, -, rfl⟩ | ⟨-, -, -, rfl⟩ := step_cases hstep
  · rfl
  · exact (exec_call_cfg hx).trans rfl
  · exact (elemStep_of_found hd hx).cfg.trans s.enterUnit_cfg
  all_goals simp

/-! ### The count of bytes -/

/-- An element produces bytes or leaves the count alone (42_window.md R146). -/
theorem ElemStep.total_le {u t : State} {e : Expect} (h : ElemStep u e t) : u.total ≤ t.total := by
  cases h with
  | copy T d v h =>
    obtain ⟨-, ht, -⟩ := copyBytes_counts h
    rw [State.commit_total, ht]
    exact Nat.le_add_right _ _
  | _ => simp

/-- EOF and DECOMPRESS leave the count alone when they begin. -/
theorem exec_call_total {c : HostCall} {s t : State} (hc : c ≠ .reset) (h : exec c.instr s = .next t) :
    t.total = s.total := by
  cases c with
  | reset => exact absurd rfl hc
  | eof => cases h; rfl
  | decompress chunk =>
    obtain ⟨-, -, rfl⟩ | ⟨-, -, rfl⟩ | ⟨-, -, rfl⟩ := execDecompress_cases h <;> simp

/-- The rollback point of a unit under way has the count at which the unit stands: no unit that suspends has produced a
byte (44_fsm_host.md R192). -/
theorem Running.suspend_total {s : State} (h : Running s) : s.suspend.total = s.total := by
  obtain ⟨rd, f, -, -, hsnap⟩ := h.point
  rw [State.suspend_running h.call hsnap]
  rfl

/-- Settles O54, over the ways a step answers a next state (`step_cases`). -/
theorem totalNeverDecreases : Obligations.TotalNeverDecreases := by
  intro s t h hreset hstep
  obtain ⟨-, -, rfl⟩ | ⟨c, cs, hp, hc, hx⟩ | ⟨e, i, r, -, -, hd, hx⟩ | ⟨e, -, he, -, rfl⟩ | ⟨e, r, -, -, -, rfl⟩ |
    ⟨-, -, -, rfl⟩ | ⟨-, -, -, rfl⟩ := step_cases hstep
  · exact Nat.le_refl _
  · have hne : c ≠ .reset := by
      rintro rfl
      exact hreset ⟨hp, by rw [hc]; rfl⟩
    exact (exec_call_total hne hx).ge
  · simpa using (elemStep_of_found hd hx).total_le
  · exact ((h.running_enterUnit he).suspend_total.trans s.enterUnit_total).ge
  all_goals simp

end Sys2Proof.Machine
end

section
/-! RESET and the STATUS view: the values of a session that begins (10_state.md R42), and the fields of STATUS (R37). -/

namespace Sys2Proof.Machine

/-! ### STATUS -/

/-- The bit of STATUS at `i`, by the field that holds it (R37). -/
theorem State.status_getLsbD (s : State) (i : Nat) :
    s.status.getLsbD i =
      if i < 3 then s.fsm.code.getLsbD i
      else if i < 4 then s.statusKind.getLsbD (i - 3)
      else if i < 5 then s.statusBfinal.getLsbD (i - 4)
      else if i < 6 then (BitVec.ofBool s.eof).getLsbD (i - 5)
      else if i < 8 then false
      else if i < 12 then s.statusErr.getLsbD (i - 8)
      else if i < 16 then false
      else s.statusRem.getLsbD (i - 16) := by
  have hsub : ∀ a b, 0 < b → (i - a < b ↔ i < a + b) := by omega
  change BitVec.getLsbD (w := 16 + 4 + 4 + 2 + 1 + 1 + 1 + 3) (_ ++ _) i = _
  simp only [BitVec.getLsbD_append, Nat.sub_sub, hsub, Nat.zero_lt_succ, BitVec.ofNat_eq_ofNat, BitVec.getLsbD_zero]

/-- In HDR STATUS is 0. -/
theorem State.status_of_hdr {s : State} (h : s.fsm = .hdr) : s.status = 0x00000000#32 := by
  simp only [State.status, State.statusRem, State.statusErr, State.statusBfinal, State.statusKind, State.eof, h,
    reduceCtorEq, false_and, if_false]
  rfl

/-- Settles O58: each field of STATUS is the part of the concatenation that stands at its bits (`status_getLsbD`). -/
theorem statusShowsTheState : Obligations.StatusShowsTheState := by
  intro s
  refine ⟨?state, ?kind, ?bfinal, ?eof, ?zeros, ?err, ?zeros', ?rem⟩
  case state =>
    have h : s.status.extractLsb' 0 3 = s.fsm.code := by
      ext i hi
      simp [State.status_getLsbD, hi]
    rw [h]
    cases s.fsm <;> rfl
  case kind =>
    rw [State.status_getLsbD]
    by_cases h : s.fsm = .body ∧ s.kind = .dynamic <;> simp [State.statusKind, h]
  case bfinal =>
    rw [State.status_getLsbD]
    cases hf : s.fsm <;> simp [State.statusBfinal, hf]
  case eof =>
    rw [State.status_getLsbD]
    cases hf : s.fsm <;> simp [State.eof, hf]
  case err =>
    have h : s.status.extractLsb' 8 4 = s.statusErr := by
      ext i hi
      rw [BitVec.getElem_extractLsb', State.status_getLsbD]
      simp (disch := omega) only [if_pos, if_neg, Nat.add_sub_cancel_left, BitVec.getLsbD_eq_getElem]
    rw [h]
    rfl
  case rem =>
    ext i hi
    rw [BitVec.getElem_extractLsb', State.status_getLsbD]
    simp (disch := omega) only [if_neg, Nat.add_sub_cancel_left, BitVec.getLsbD_eq_getElem]
    rfl
  case zeros | zeros' =>
    ext i hi
    rw [BitVec.getElem_extractLsb', State.status_getLsbD]
    simp (disch := omega) only [if_pos, if_neg]
    rw [BitVec.ofNat_eq_ofNat, BitVec.getElem_zero]

/-! ### A session that begins -/

/-- Settles O1: the values are those of `State.reset`, which RESET copies but for the parameters and the queue. -/
theorem resetStartsSession : Obligations.ResetStartsSession := by
  intro s
  refine ⟨_, rfl, rfl, rfl, ?_⟩
  rintro u (rfl | rfl)
  all_goals exact ⟨rfl, rfl, rfl, rfl, rfl, rfl, rfl, rfl, rfl, rfl, rfl, State.status_of_hdr rfl⟩

/-- Nothing has been produced at reset. -/
theorem historyOk_reset : HistoryOk State.reset :=
  fun _ => ⟨rfl, fun _ hk hk' => absurd (hk.trans (hk'.trans (Nat.min_le_left _ _))) (Nat.not_succ_le_zero 0)⟩

/-- Settles O2, from the legal state every RESET answers. -/
theorem legalStateAtReset : Obligations.LegalStateAtReset :=
  ⟨inv_reset_with State.reset.cfg State.reset.calls, historyOk_reset⟩

end Sys2Proof.Machine
end

section
/-! Bits written and read back: a field, a codeword and an element whose encoding stands next in the reader are what the
decoder finds there (20_memory.md R53, R54; 30_encoding.md). -/

namespace Sys2Proof.Laws.SymbolRoundTrip

/-- The family's lemmas, one per constructor of `Instr`, in its order. -/
theorem statement (i : Instr) : Statement i :=
  Instr.rec blkStored blkFixed blkDynamic blkReserved storedHdr storedByte storedEnd dynCounts clLen clSet clRep16
    clZero17 clZero18 lit eob len257 len258 len259 len260 len261 len262 len263 len264 len265 len266 len267 len268
    len269 len270 len271 len272 len273 len274 len275 len276 len277 len278 len279 len280 len281 len282 len283 len284
    len285 invalid286 invalid287 dist0 dist1 dist2 dist3 dist4 dist5 dist6 dist7 dist8 dist9 dist10 dist11 dist12
    dist13 dist14 dist15 dist16 dist17 dist18 dist19 dist20 dist21 dist22 dist23 dist24 dist25 dist26 dist27 dist28
    dist29 dist30 dist31 feed readBits alignToByte avail build decode append copyMatch reset decompress eof i

end Sys2Proof.Laws.SymbolRoundTrip

namespace Sys2Proof

/-! ### Fields -/

@[simp] theorem fieldBits_length (n v : Nat) : (fieldBits n v).length = n := by simp [fieldBits]

/-- A field's bits give its value (20_memory.md R53). -/
theorem eq_of_fieldBits_eq {n v w : Nat} (hv : v < 2 ^ n) (hw : w < 2 ^ n) (h : fieldBits n v = fieldBits n w) :
    v = w := by
  refine Nat.eq_of_testBit_eq fun i => ?_
  by_cases hi : i < n
  · exact List.map_inj_left.mp h i (List.mem_range.mpr hi)
  · have hle : 2 ^ n ≤ 2 ^ i := Nat.pow_le_pow_right (by decide) (Nat.le_of_not_lt hi)
    rw [Nat.testBit_lt_two_pow (hv.trans_le hle), Nat.testBit_lt_two_pow (hw.trans_le hle)]

/-- READ_BITS returns the field that stands next (R53, 40_bit_reader.md R116). -/
theorem Reader.readBits_of_bits {n v : Nat} {r : Reader} {rest : List Bool} (hv : v < 2 ^ n)
    (h : r.bits = fieldBits n v ++ rest) :
    ∃ r', r.readBits n = some (v, r') ∧ r'.bits = rest ∧ r'.bitpos = r.bitpos + n := by
  have hn : n ≤ r.avail := by rw [← r.bits_length, h]; simp
  obtain ⟨hlt, hbits, hpos⟩ := Reader.takeBits_spec hn
  obtain ⟨hfield, hrest⟩ := List.append_inj (h.symm.trans hbits) (by simp)
  have hval : v = (r.takeBits n).1 := eq_of_fieldBits_eq hv hlt hfield
  refine ⟨(r.takeBits n).2, ?_, hrest.symm, hpos⟩
  rw [Reader.readBits, if_neg (Nat.not_lt.mpr hn), hval]

/-! ### Codewords -/

/-- No codeword of a prefix-free code begins another one (30_encoding.md R94). -/
theorem Code.eq_of_begins {T : Code} (h : T.prefixFree = true) {v w : Codeword} (hv : v ∈ T) (hw : w ∈ T)
    (hb : v.begins w = true) : v = w := by
  induction T with
  | nil => cases hv
  | cons x T ih =>
    simp only [Code.prefixFree, Bool.and_eq_true, List.all_eq_true, Bool.not_eq_true'] at h
    obtain ⟨hx, hT⟩ := h
    rcases List.mem_cons.mp hv with rfl | hvT <;> rcases List.mem_cons.mp hw with rfl | hwT
    · rfl
    · simp [(hx w hwT).2] at hb
    · simp [(hx v hvT).1] at hb
    · exact ih hT hvT hwT

theorem Codeword.begins_iff {v w : Codeword} :
    v.begins w = true ↔ v.len ≤ w.len ∧ w.code >>> (w.len - v.len) = v.code := by
  simp [Codeword.begins]

/-- Exactly the bits of a codeword give its symbol (41_huffman.md R132). -/
theorem Code.symbol_self {T : Code} (h : T.prefixFree = true) {w : Codeword} (hw : w ∈ T) :
    T.symbol w.code w.len = some w.sym := by
  cases hs : T.symbol w.code w.len with
  | none => exact absurd ⟨rfl, rfl⟩ (Code.symbol_eq_none.mp hs w hw)
  | some s =>
    obtain ⟨v, hv, hlen, hcode, rfl⟩ := Code.symbol_eq_some hs
    rw [Code.eq_of_begins h hv hw (Codeword.begins_iff.mpr ⟨hlen.le, by simp [hlen, hcode]⟩)]

/-- The beginning of a codeword, all but its last `k + 1` bits, is no codeword (R94). -/
theorem Code.symbol_of_beginning {T : Code} (h : T.prefixFree = true) {w : Codeword} (hw : w ∈ T) {k : Nat}
    (hk : k < w.len) : T.symbol (w.code >>> (k + 1)) (w.len - (k + 1)) = none := by
  refine Code.symbol_eq_none.mpr fun v hv ⟨hlen, hcode⟩ => ?_
  have hsub : w.len - v.len = k + 1 := by omega
  have hvw := Code.eq_of_begins h hv hw (Codeword.begins_iff.mpr ⟨by omega, by rw [hsub, hcode]⟩)
  rw [hvw] at hlen
  omega

theorem Code.continues_of_beginning {T : Code} {w : Codeword} (hw : w ∈ T) {k : Nat} (hk : k < w.len) :
    T.continues (w.code >>> (k + 1)) (w.len - (k + 1)) = true :=
  Code.continues_iff.mpr ⟨w, hw, by omega, by congr 1; omega⟩

/-- The last `k + 1` bits of a codeword, MSB first, are bit `k` and then the last `k` (20_memory.md R54). -/
theorem fieldBits_succ_reverse (k c : Nat) :
    (fieldBits (k + 1) c).reverse = fieldBits 1 (c.testBit k).toNat ++ (fieldBits k c).reverse := by
  have h1 : fieldBits 1 (c.testBit k).toNat = [c.testBit k] := by cases c.testBit k <;> rfl
  rw [h1, fieldBits, List.range_succ]
  simp [fieldBits]

theorem two_mul_shiftRight_succ_add (c k : Nat) : 2 * (c >>> (k + 1)) + (c.testBit k).toNat = c >>> k := by
  rw [Nat.shiftRight_succ, Nat.testBit_eq_decide_div_mod_eq, Nat.shiftRight_eq_div_pow]
  rcases Nat.mod_two_eq_zero_or_one (c / 2 ^ k) with h | h <;> simp [h] <;> omega

/-- DECODE's loop, with all but the last `k` bits of a codeword read, finds its symbol when these bits are next. -/
theorem decodeSymFrom_of_bits {T : Code} (h : T.prefixFree = true) {w : Codeword} (hw : w ∈ T) {k fuel : Nat}
    (hk : k ≤ w.len) (hfuel : k < fuel) {r : Reader} {rest : List Bool}
    (hr : r.bits = (fieldBits k w.code).reverse ++ rest) :
    ∃ r', decodeSymFrom T fuel (w.code >>> k) (w.len - k) r = .sym w.sym r' ∧ r'.bits = rest ∧
      r'.bitpos = r.bitpos + k := by
  induction k generalizing fuel r with
  | zero =>
    obtain ⟨fuel, rfl⟩ := Nat.exists_eq_add_of_lt hfuel
    refine ⟨r, ?_, hr, rfl⟩
    simp [decodeSymFrom, Code.symbol_self h hw]
  | succ k ih =>
    obtain ⟨fuel, rfl⟩ := Nat.exists_eq_succ_of_ne_zero (Nat.ne_zero_of_lt hfuel)
    rw [fieldBits_succ_reverse, List.append_assoc] at hr
    obtain ⟨r₁, hread, hbits₁, hpos₁⟩ := Reader.readBits_of_bits (Bool.toNat_lt _) hr
    obtain ⟨r', hdec, hbits, hpos⟩ := ih (Nat.le_of_succ_le hk) (Nat.lt_of_succ_lt_succ hfuel) hbits₁
    refine ⟨r', ?_, hbits, by omega⟩
    rw [decodeSymFrom, Code.symbol_of_beginning h hw hk, Code.continues_of_beginning hw hk, hread]
    have hlen : w.len - (k + 1) + 1 = w.len - k := by omega
    simpa [two_mul_shiftRight_succ_add, hlen] using hdec

theorem Code.prefixFree_of_wf {T : Code} (h : T.wf = true) : T.prefixFree = true := by
  simp only [Code.wf, Bool.and_eq_true] at h
  obtain ⟨⟨-, hfree⟩, -⟩ := h
  exact hfree

/-- A codeword of a code as BUILD returns one is a value of at most 15 bits (41_huffman.md R125). -/
theorem Code.codeword_bounds_of_wf {T : Code} (h : T.wf = true) {w : Codeword} (hw : w ∈ T) :
    w.len ≤ Config.maxCodeLen ∧ w.code < 2 ^ w.len := by
  simp only [Code.wf, Bool.and_eq_true, List.all_eq_true] at h
  obtain ⟨⟨hwords, -⟩, -⟩ := h
  have hwf := hwords w hw
  simp only [Codeword.wf, Bool.and_eq_true, decide_eq_true_eq] at hwf
  obtain ⟨⟨⟨-, hlen⟩, hcode⟩, -⟩ := hwf
  exact ⟨hlen, hcode⟩

/-- DECODE finds the symbol of the codeword that stands next (R132). -/
theorem decodeSym_of_bits {T : Code} (h : T.wf = true) {w : Codeword} (hw : w ∈ T) {r : Reader} {rest : List Bool}
    (hr : r.bits = w.bits ++ rest) :
    ∃ r', decodeSym T r = .sym w.sym r' ∧ r'.bits = rest ∧ r'.bitpos = r.bitpos + w.len := by
  obtain ⟨hlen, hcode⟩ := Code.codeword_bounds_of_wf h hw
  simpa [decodeSym, Nat.shiftRight_eq_zero _ _ hcode] using
    decodeSymFrom_of_bits (Code.prefixFree_of_wf h) hw le_rfl (Nat.lt_succ_of_le hlen) hr

/-! ### Elements -/

theorem Code.codeword_eq_some {T : Code} {s : Nat} {w : Codeword} (h : T.codeword s = some w) : w ∈ T ∧ w.sym = s :=
  ⟨List.mem_of_find?_eq_some h, by simpa using List.find?_some h⟩

@[simp] theorem Codeword.bits_length (w : Codeword) : w.bits.length = w.len := by simp [Codeword.bits]

/-- A coded element is decoded from its codeword and extra field (30_encoding.md R88). -/
theorem decodeCoded_of_bits {T : Code} {ext : Nat → Nat} {elem : Nat → Nat → Option Instr} {se : Option (Nat × Nat)}
    {i : Instr} {bs rest : List Bool} {r : Reader} (hT : T.wf = true)
    (hsym : ∀ p, se = some p → p.2 < 2 ^ ext p.1 ∧ elem p.1 p.2 = some i) (henc : encodeCoded T ext se = some bs)
    (hr : r.bits = bs ++ rest) :
    ∃ r', decodeCoded T ext elem r = .found i r' ∧ r'.bits = rest ∧ r'.bitpos = r.bitpos + bs.length := by
  obtain ⟨⟨s, x⟩, rfl, hmap⟩ := Option.bind_eq_some_iff.mp henc
  obtain ⟨w, hw, rfl⟩ := Option.map_eq_some_iff.mp hmap
  obtain ⟨hmem, rfl⟩ := Code.codeword_eq_some hw
  obtain ⟨hx, helem⟩ := hsym _ rfl
  rw [List.append_assoc] at hr
  obtain ⟨r₁, hdec, hbits₁, hpos₁⟩ := decodeSym_of_bits hT hmem hr
  obtain ⟨r₂, hread, hbits₂, hpos₂⟩ := Reader.readBits_of_bits hx hbits₁
  refine ⟨r₂, ?_, hbits₂, ?_⟩
  · simp only [decodeCoded, hdec, hread, helem]
  · simp only [hpos₂, hpos₁, List.length_append, Codeword.bits_length, fieldBits_length, Nat.add_assoc]

/-- A block header is decoded from BFINAL and BTYPE (R76, R77). -/
theorem decodeHeader_of_bits {f : Bool} {ty : Nat} {r : Reader} {rest : List Bool} (hty : ty < 4)
    (hr : r.bits = fieldBits 1 f.toNat ++ fieldBits 2 ty ++ rest) :
    ∃ r', decodeHeader r = .found (headerInstr f ty) r' ∧ r'.bits = rest ∧ r'.bitpos = r.bitpos + 3 := by
  rw [List.append_assoc] at hr
  obtain ⟨r₁, hf, hbits₁, hpos₁⟩ := Reader.readBits_of_bits (Bool.toNat_lt f) hr
  obtain ⟨r₂, ht, hbits₂, hpos₂⟩ := Reader.readBits_of_bits hty hbits₁
  refine ⟨r₂, ?_, hbits₂, by omega⟩
  cases f <;> simp [decodeHeader, hf, ht, Decoded.ofRead]

/-- LEN and NLEN are decoded from their two fields (R79). -/
theorem decodeStoredHdr_of_bits {len nlen : BitVec 16} {r : Reader} {rest : List Bool}
    (hr : r.bits = fieldBits 16 len.toNat ++ fieldBits 16 nlen.toNat ++ rest) :
    ∃ r', decodeStoredHdr r = .found (.storedHdr len nlen) r' ∧ r'.bits = rest ∧ r'.bitpos = r.bitpos + 32 := by
  rw [List.append_assoc] at hr
  obtain ⟨r₁, hl, hbits₁, hpos₁⟩ := Reader.readBits_of_bits len.isLt hr
  obtain ⟨r₂, hn, hbits₂, hpos₂⟩ := Reader.readBits_of_bits nlen.isLt hbits₁
  exact ⟨r₂, by simp [decodeStoredHdr, hl, hn, Decoded.ofRead], hbits₂, by omega⟩

/-- A data byte is decoded from its field (43_block_decoder.md R153). -/
theorem decodeStoredByte_of_bits {b : Byte} {r : Reader} {rest : List Bool}
    (hr : r.bits = fieldBits 8 b.toNat ++ rest) :
    ∃ r', decodeStoredByte r = .found (.storedByte b) r' ∧ r'.bits = rest ∧ r'.bitpos = r.bitpos + 8 := by
  obtain ⟨r', hb, hleft⟩ := Reader.readBits_of_bits b.isLt hr
  exact ⟨r', by simp [decodeStoredByte, hb, Decoded.ofRead], hleft⟩

/-- The counts are decoded from their three fields (R81). -/
theorem decodeDynCounts_of_bits {hlit hdist : BitVec 5} {hclen : BitVec 4} {r : Reader} {rest : List Bool}
    (hr : r.bits = fieldBits 5 hlit.toNat ++ fieldBits 5 hdist.toNat ++ fieldBits 4 hclen.toNat ++ rest) :
    ∃ r', decodeDynCounts r = .found (.dynCounts hlit hdist hclen) r' ∧ r'.bits = rest ∧
      r'.bitpos = r.bitpos + 14 := by
  rw [List.append_assoc, List.append_assoc] at hr
  obtain ⟨r₁, ha, hbits₁, hpos₁⟩ := Reader.readBits_of_bits hlit.isLt hr
  obtain ⟨r₂, hb, hbits₂, hpos₂⟩ := Reader.readBits_of_bits hdist.isLt hbits₁
  obtain ⟨r₃, hc, hbits₃, hpos₃⟩ := Reader.readBits_of_bits hclen.isLt hbits₂
  exact ⟨r₃, by simp [decodeDynCounts, ha, hb, hc, Decoded.ofRead], hbits₃, by omega⟩

/-- A CL length is decoded from its field (R83). -/
theorem decodeClLen_of_bits {l : BitVec 3} {r : Reader} {rest : List Bool} (hr : r.bits = fieldBits 3 l.toNat ++ rest) :
    ∃ r', decodeClLen r = .found (.clLen l) r' ∧ r'.bits = rest ∧ r'.bitpos = r.bitpos + 3 := by
  obtain ⟨r', hl, hleft⟩ := Reader.readBits_of_bits l.isLt hr
  exact ⟨r', by simp [decodeClLen, hl, Decoded.ofRead], hleft⟩

/-- The bits a header has, by its BFINAL and BTYPE (R76, R77). -/
theorem encode_blockHeader {i : Instr} {bs : List Bool} (h : encode .blockHeader i = some bs) :
    ∃ f ty, ty < 4 ∧ i = headerInstr f ty ∧ bs = fieldBits 1 f.toNat ++ fieldBits 2 ty := by
  dsimp only [encode] at h
  split at h <;> cases h
  · exact ⟨_, 0, by decide, rfl, rfl⟩
  · exact ⟨_, 1, by decide, rfl, rfl⟩
  · exact ⟨_, 2, by decide, rfl, rfl⟩
  · exact ⟨_, 3, by decide, rfl, rfl⟩

/-- Settles O9, over the formats: each field reads back (`Reader.readBits_of_bits`), each codeword decodes to its symbol
(`decodeSym_of_bits`), and symbol and extra field give the element back (`SymbolRoundTrip.statement`). -/
theorem decodeOfEncode : Obligations.DecodeOfEncode := by
  intro e i bs rest r hT henc hr
  obtain ⟨hcl, hll, hd⟩ := Laws.SymbolRoundTrip.statement i
  cases e with
  | blockHeader =>
    obtain ⟨f, ty, hty, rfl, rfl⟩ := encode_blockHeader henc
    exact decodeHeader_of_bits hty hr
  | storedHdr =>
    dsimp only [encode] at henc
    split at henc <;> cases henc
    exact decodeStoredHdr_of_bits hr
  | storedByte =>
    dsimp only [encode] at henc
    split at henc <;> cases henc
    exact decodeStoredByte_of_bits hr
  | storedEnd =>
    dsimp only [encode] at henc
    split at henc <;> cases henc
    exact ⟨r, rfl, hr, rfl⟩
  | dynCounts =>
    dsimp only [encode] at henc
    split at henc <;> cases henc
    exact decodeDynCounts_of_bits hr
  | clLen =>
    dsimp only [encode] at henc
    split at henc <;> cases henc
    exact decodeClLen_of_bits hr
  | clSym T => exact decodeCoded_of_bits hT hcl henc hr
  | llSym T => exact decodeCoded_of_bits hT hll henc hr
  | dSym T => exact decodeCoded_of_bits hT hd henc hr

end Sys2Proof
end

section
/-! Progress from legal states: every copy reads bytes the window has (20_memory.md R69), so every element and every
transaction that a legal state runs answers a next state. -/

namespace Sys2Proof.Machine

/-! ### The window -/

/-- A byte that was produced and not yet overwritten has a value (R69, R141). -/
theorem WindowOk.exists_read_back {s : State} {d : Nat} (h : WindowOk s) (hpos : 1 ≤ d) (hd : d ≤ s.total) :
    ∃ b, s.win.read (s.wpos - BitVec.ofNat 16 d) = some b := by
  obtain ⟨hwpos, -, hall⟩ := h
  refine Option.isSome_iff_exists.mp (hall _ ?_)
  rw [hwpos, BitVec.toNat_sub, BitVec.toNat_ofNat, BitVec.toNat_ofNat, Config.windowSize]
  omega

/-- A copy at a distance the session has produced reads no byte that nothing has written (R69). -/
theorem exists_copyBytes {d : Nat} (l : Nat) {s : State} (h : WindowOk s) (hpos : 1 ≤ d) (hd : d ≤ s.total) :
    ∃ t, copyBytes d l s = some t := by
  induction l generalizing s with
  | zero => exact ⟨s, rfl⟩
  | succ l ih =>
    obtain ⟨b, hb⟩ := h.exists_read_back hpos hd
    obtain ⟨t, ht⟩ := ih (h.append b) (hd.trans (by simp))
    exact ⟨t, by rw [copyBytes, hb]; exact ht⟩

/-! ### The elements -/

/-- The distance table has 32 rows (30_encoding.md R93). -/
theorem sym_lt_of_distInstr {t x : Nat} {i : Instr} (h : distInstr t x = some i) : t < 32 := by
  by_contra hlt
  obtain ⟨k, rfl⟩ := Nat.exists_eq_add_of_le' (Nat.le_of_not_lt hlt)
  cases h

/-- Every distance a D symbol means is at least 1 (R93). -/
theorem matchDistance_pos {t : Nat} (ht : t < 32) (x : Nat) : 1 ≤ matchDistance t x := by
  have htable : ∀ p ∈ distTable, 1 ≤ p.2 := by decide
  have hrow := htable _ (List.getElem_mem (l := distTable) ht)
  rw [matchDistance, dbase, List.getD_eq_getElem _ _ ht]
  omega

/-- A distance symbol copies or raises, and never stops (R69, 42_window.md R142). -/
theorem exec_distInstr_next {t x : Nat} {i : Instr} {u : State} (h : distInstr t x = some i) (hw : WindowOk u) :
    ∃ v, exec i u = .next v := by
  obtain ⟨e, he⟩ := exec_distInstr h
  rw [he, distanceElem]
  have hpos := matchDistance_pos (sym_lt_of_distInstr h) e
  obtain ⟨-, hc⟩ | ⟨hd, hnone, -⟩ | ⟨v, -, -, hc⟩ := copyMatchThen_cases (matchDistance t e) u.mlen State.commit u
  · exact ⟨_, hc⟩
  · obtain ⟨v, hv⟩ := exists_copyBytes u.mlen hw hpos hd
    rw [hnone] at hv
    cases hv
  · exact ⟨_, hc⟩

theorem exec_headerInstr_next (f : Bool) (ty : Nat) (u : State) : ∃ v, exec (headerInstr f ty) u = .next v := by
  match ty with
  | 0 | 1 | 2 | _ + 3 => exact ⟨_, rfl⟩

theorem execStoredHdr_next (len nlen : BitVec 16) (u : State) : ∃ v, execStoredHdr len nlen u = .next v := by
  unfold execStoredHdr
  split <;> exact ⟨_, rfl⟩

theorem execDynCounts_next (hlit hdist : BitVec 5) (hclen : BitVec 4) (u : State) :
    ∃ v, execDynCounts hlit hdist hclen u = .next v := by
  unfold execDynCounts
  split <;> exact ⟨_, rfl⟩

theorem execClLen_next (l : BitVec 3) (u : State) : ∃ v, execClLen l u = .next v := by
  unfold execClLen
  dsimp only
  split
  · exact ⟨_, rfl⟩
  · split <;> exact ⟨_, rfl⟩

theorem execClRep16_next (extra : BitVec 2) (u : State) : ∃ v, execClRep16 extra u = .next v := by
  unfold execClRep16
  split <;> exact ⟨_, rfl⟩

theorem exec_clInstr_next {s x : Nat} {i : Instr} (h : clInstr s x = some i) (u : State) :
    ∃ v, exec i u = .next v := by
  obtain ⟨v, rfl⟩ | ⟨e, rfl⟩ | ⟨e, rfl⟩ | ⟨e, rfl⟩ := clInstr_cases h
  · exact ⟨_, rfl⟩
  · exact execClRep16_next e u
  · exact ⟨_, rfl⟩
  · exact ⟨_, rfl⟩

theorem exec_llInstr_next {s x : Nat} {i : Instr} (h : llInstr s x = some i) (u : State) :
    ∃ v, exec i u = .next v := by
  unfold llInstr at h
  split at h
  · cases h; exact ⟨_, rfl⟩
  split at h
  · cases h; exact ⟨_, rfl⟩
  split at h
  · cases h; exact ⟨_, rfl⟩
  split at h
  · cases h; exact ⟨_, rfl⟩
  obtain ⟨_, -, -, -, hl⟩ := lengthHeld_of_lenInstr h
  exact ⟨_, hl u⟩

/-- A decoded element answers a next state, whatever its operands, if the window's side of the state is legal. -/
theorem exec_found_next {e : Expect} {i : Instr} {r r' : Reader} {u : State} (hd : decode e r = .found i r')
    (hw : WindowOk u) : ∃ v, exec i u = .next v := by
  cases e with
  | blockHeader =>
    obtain ⟨⟨f, ty, rfl⟩, -⟩ := decodeHeader_found hd
    exact exec_headerInstr_next f ty u
  | storedHdr =>
    obtain ⟨⟨l, n, rfl⟩, -⟩ := decodeStoredHdr_found hd
    exact execStoredHdr_next l n u
  | storedByte =>
    obtain ⟨⟨b, rfl⟩, -⟩ := decodeStoredByte_found hd
    exact ⟨_, rfl⟩
  | storedEnd =>
    cases hd
    exact ⟨_, rfl⟩
  | dynCounts =>
    obtain ⟨⟨a, b, c, rfl⟩, -⟩ := decodeDynCounts_found hd
    exact execDynCounts_next a b c u
  | clLen =>
    obtain ⟨⟨l, rfl⟩, -⟩ := decodeClLen_found hd
    exact execClLen_next l u
  | clSym T =>
    obtain ⟨⟨s, x, hi⟩, -⟩ := decodeCoded_found hd
    exact exec_clInstr_next hi u
  | llSym T =>
    obtain ⟨⟨s, x, hi⟩, -⟩ := decodeCoded_found hd
    exact exec_llInstr_next hi u
  | dSym T =>
    obtain ⟨⟨s, x, hi⟩, -⟩ := decodeCoded_found hd
    exact exec_distInstr_next hi hw

/-! ### The host's transactions -/

/-- A transaction that begins between two calls is not refused (70_reset_and_hazards.md R255). -/
theorem exec_call_next (c : HostCall) {s : State} (hp : s.phase = .idle) : ∃ t, exec c.instr s = .next t := by
  cases c with
  | reset | eof => exact ⟨_, rfl⟩
  | decompress chunk =>
    change ∃ t, execDecompress chunk s = .next t
    rw [execDecompress, if_neg (not_not.mpr hp)]
    cases s.fsm <;> exact ⟨_, rfl⟩

/-- Settles O5: a step waits, runs a transaction between two calls, runs a decoded element with the window legal, or
runs nothing. -/
theorem legalStepsNeverStop : Obligations.LegalStepsNeverStop := by
  intro s h
  by_cases hp : s.phase = .idle
  · cases hc : s.calls with
    | nil => exact ⟨s, step_idle_nil hp hc⟩
    | cons c cs =>
      rw [step_idle_cons hp hc]
      exact exec_call_next c hp
  · rw [step, fetch_running hp]
    cases s.expect with
    | none =>
      by_cases hf : s.fsm = .done <;> simp [hf]
    | some e =>
      dsimp only [fetchElem]
      cases hd : decode e s.enterUnit.rd with
      | found i r => exact exec_found_next hd (by simpa [WindowOk] using h.window)
      | suspend | invalid r => exact ⟨_, rfl⟩

end Sys2Proof.Machine
end

section
/-! READ_BITS run as an instruction of its own (40_bit_reader.md R116). -/

namespace Sys2Proof.Machine

/-- READ_BITS with its bits there takes them and shows their value (R116). -/
theorem execReadBits_of_avail {n : Nat} {s : State} (h : n ≤ s.rd.avail) :
    execReadBits n s = .next { s with rd := (s.rd.takeBits n).2, opRes := .bits (s.rd.takeBits n).1 } := by
  rw [execReadBits, Reader.readBits, if_neg (Nat.not_lt.mpr h)]

/-- Settles O14: the value and the reader are those of READ_BITS's loop (`Reader.takeBits_spec`). -/
theorem readBitsTakesField : Obligations.ReadBitsTakesField := by
  intro n s h
  obtain ⟨hlt, hbits, hpos⟩ := Reader.takeBits_spec (r := s.rd) h
  refine ⟨_, _, execReadBits_of_avail h, hlt, fun i hi => ?_, ?_, hpos⟩
  · rw [hbits, List.getElem?_append_left (by simpa using hi)]
    simp [hi]
  · rw [hbits]
    exact (List.drop_left' (by simp)).symm

end Sys2Proof.Machine
end

section
/-! The length symbols (30_encoding.md R92) and the distance symbols (R93): an element that is symbol and extra field
runs on base plus extra, and a distance symbol copies or raises (42_window.md R141, R142). -/

namespace Sys2Proof.Machine

/-! ### The copy -/

/-- Less than a whole window on is another address (20_memory.md R57). -/
theorem add_ofNat_ne_self {i : Nat} (x : BitVec 16) (hpos : 1 ≤ i) (hi : i < Config.windowSize) :
    x ≠ x + BitVec.ofNat 16 i := fun h => by
  have := congrArg BitVec.toNat h
  simp only [BitVec.toNat_add, BitVec.toNat_ofNat, Config.windowSize] at this hi
  have := x.isLt
  omega

/-- The byte just appended is the one produced last (42_window.md R140). -/
theorem State.recent_append_one (b : Byte) (s : State) : (s.append b).recent 1 = some b := by
  simp [State.recent]

/-- An append moves the bytes produced before it one further back, all but the byte it overwrites (R140). -/
theorem State.recent_append_succ {k : Nat} (b : Byte) (s : State) (hpos : 1 ≤ k) (hk : k < Config.windowSize) :
    (s.append b).recent (k + 1) = s.recent k := by
  have haddr : s.wpos + 1 - BitVec.ofNat 16 (k + 1) = s.wpos - BitVec.ofNat 16 k := by
    rw [BitVec.ofNat_add]
    exact add_sub_add_right_eq_sub ..
  have hne : s.wpos - BitVec.ofNat 16 k ≠ s.wpos := by
    simpa [BitVec.sub_add_cancel] using add_ofNat_ne_self (s.wpos - BitVec.ofNat 16 k) hpos hk
  rw [State.recent, State.append_wpos, haddr, State.append_win, Memory.read_write_other _ _ hne, State.recent]

/-- Completing the unit touches nothing a copy writes. -/
theorem CopyEffect.commit {d l : Nat} {s t : State} (h : CopyEffect d l s t) : CopyEffect d l s t.commit := h

/-- A copy of no byte leaves everything as it is. -/
theorem copyEffect_zero (d : Nat) (s : State) : CopyEffect d 0 s s :=
  ⟨[], rfl, nofun, nofun, (List.append_nil _).symm, by simp, rfl, nofun, fun _ _ => rfl⟩

/-- A byte copied from `d` back, and a copy of `l` bytes after it, are a copy of `l + 1` bytes (42_window.md R141). -/
theorem CopyEffect.cons {d l : Nat} {s t : State} {b : Byte} (hpos : 1 ≤ d) (hd : d ≤ Config.windowSize)
    (hb : s.recent d = some b) (h : CopyEffect d l (s.append b) t) : CopyEffect d (l + 1) s t := by
  obtain ⟨bytes, hlen, hbefore, hwithin, hout, hwpos, htotal, hwin, hframe⟩ := h
  simp only [State.append_wpos, add_one_add_ofNat] at hwpos hwin hframe
  refine ⟨b :: bytes, by simp [hlen], ?before, ?within, by simp [hout], hwpos, ?total, ?win, ?frame⟩
  case before =>
    rintro (_ | i) hi hid
    · exact hb.symm
    · have hk : d - i = d - (i + 1) + 1 := by omega
      rw [List.getElem?_cons_succ, hbefore i (by omega) (by omega), hk,
        State.recent_append_succ b s (by omega) (by omega)]
  case within =>
    rintro (_ | i) hi hdi
    · omega
    · rw [List.getElem?_cons_succ]
      rcases Nat.lt_or_ge i d with hlt | hge
      · obtain rfl : d = i + 1 := by omega
        rw [hbefore i (by omega) hlt, Nat.add_sub_cancel_left, State.recent_append_one, Nat.sub_self]
        rfl
      · rw [hwithin i (by omega) hge, Nat.sub_add_comm hge, List.getElem?_cons_succ]
  case total =>
    rw [htotal, State.append_total]
    omega
  case win =>
    rintro (_ | i) hi hli
    · rw [BitVec.add_zero, hframe s.wpos fun j hj => add_ofNat_ne_self s.wpos (by omega) (by omega)]
      simp
    · rw [List.getElem?_cons_succ]
      exact hwin i (by omega) (by omega)
  case frame =>
    intro a ha
    have h0 : a ≠ s.wpos := by simpa using ha 0 (Nat.succ_pos l)
    rw [hframe a fun i hi => ha (i + 1) (by omega), State.append_win, Memory.read_write_other _ _ h0]

/-- COPY_MATCH's loop has the effect 42_window.md R141 and R143 give it. -/
theorem copyBytes_effect {d l : Nat} {s t : State} (hpos : 1 ≤ d) (hd : d ≤ Config.windowSize)
    (h : copyBytes d l s = some t) : CopyEffect d l s t := by
  induction l generalizing s with
  | zero => cases h; exact copyEffect_zero d _
  | succ l ih =>
    obtain ⟨b, hb, ht⟩ := Option.bind_eq_some_iff.mp h
    exact .cons hpos hd hb (ih ht)

/-- COPY_MATCH at a distance greater than `total` (R142). -/
theorem copyMatchThen_of_tooFar {d l : Nat} {andThen : State → State} {s : State} (h : s.total < d) :
    copyMatchThen d l andThen s = .next (s.raise .distTooFar) := if_pos h

/-- COPY_MATCH whose copy is made (R141). -/
theorem copyMatchThen_of_copied {d l : Nat} {andThen : State → State} {s t : State} (h : d ≤ s.total)
    (hc : copyBytes d l s = some t) : copyMatchThen d l andThen s = .next (andThen t) := by
  rw [copyMatchThen, if_neg (Nat.not_lt.mpr h), hc]

/-! ### Symbol and extra field -/

/-- An element that is a length symbol and extra field holds base plus extra (R92, 43_block_decoder.md R171). -/
theorem lengthHeld_of_llSymbol {i : Instr} {sym x l : Nat} (h : llSymbol i = some (sym, x)) (hs : 257 ≤ sym)
    (hs' : sym ≤ 285) (hl : l = matchLength sym x) : LengthHeld i l := by
  subst hl
  cases i <;> cases h
  case lit b => exact absurd b.isLt (by omega)
  case eob | invalid286 | invalid287 => omega
  all_goals exact fun _ => rfl

/-- An element that is a D symbol and extra field runs the copy at base plus extra (R93, 43_block_decoder.md R172). -/
theorem exec_of_dSymbol {i : Instr} {sym x : Nat} (h : dSymbol i = some (sym, x)) (s : State) :
    exec i s = distanceElem sym x s := by
  cases i <;> cases h <;> rfl

theorem matchDistance_le {t x : Nat} (ht : t < 32) (hx : x < 2 ^ dext t) : matchDistance t x ≤ Config.windowSize := by
  have htable : ∀ p ∈ distTable, p.2 + 2 ^ p.1 ≤ Config.windowSize + 1 := by decide
  have hrow := htable _ (List.getElem_mem (l := distTable) ht)
  simp only [matchDistance, dbase, dext, List.getD_eq_getElem _ _ (show t < distTable.length from ht)] at hx ⊢
  omega

/-- A D symbol's distance lies in COPY_MATCH's range (R93, 42_window.md R141). -/
theorem matchDistance_bounds_of_dSymbol {i : Instr} {sym x : Nat} (h : dSymbol i = some (sym, x)) :
    1 ≤ matchDistance sym x ∧ matchDistance sym x ≤ Config.windowSize := by
  obtain ⟨-, -, hd⟩ := Laws.SymbolRoundTrip.statement i
  obtain ⟨hx, hi⟩ := hd _ h
  have hlt := sym_lt_of_distInstr hi
  exact ⟨matchDistance_pos hlt x, matchDistance_le hlt hx⟩

/-- A D symbol copies at base plus extra: the window has every byte that is read, and `copyBytes_effect` says which they
are. -/
theorem distCopies_of_dSymbol {i : Instr} {sym x d : Nat} (h : dSymbol i = some (sym, x))
    (hd : d = matchDistance sym x) : DistCopies i d := by
  intro s hw hle
  obtain ⟨hpos, hmax⟩ := matchDistance_bounds_of_dSymbol h
  rw [← hd] at hpos hmax
  obtain ⟨t, ht⟩ := exists_copyBytes s.mlen hw hpos hle
  refine ⟨t.commit, ?_, (copyBytes_effect hpos hmax ht).commit, ?_⟩
  · rw [exec_of_dSymbol h, distanceElem, ← hd, copyMatchThen_of_copied hle ht]
  · rw [copyBytes_frame ht]
    rfl

/-- A D symbol raises when base plus extra is more than was produced (42_window.md R142). -/
theorem distTooFar_of_dSymbol {i : Instr} {sym x d : Nat} (h : dSymbol i = some (sym, x))
    (hd : d = matchDistance sym x) : DistTooFar i d := by
  intro s hlt
  refine ⟨_, ?_, State.raise_effect .distTooFar s⟩
  rw [exec_of_dSymbol h, distanceElem, ← hd, copyMatchThen_of_tooFar hlt]

/-- Settles O33: each row is a symbol whose base is the table's (R92). -/
theorem lengthSymbolsHoldTheLength : Obligations.LengthSymbolsHoldTheLength := by
  unfold Obligations.LengthSymbolsHoldTheLength
  and_intros
  all_goals
    intros
    exact lengthHeld_of_llSymbol rfl (by decide) (by decide) rfl

/-- Settles O35: each row is a symbol whose base is the table's (R93). -/
theorem distanceSymbolsCopy : Obligations.DistanceSymbolsCopy := by
  unfold Obligations.DistanceSymbolsCopy
  and_intros
  all_goals
    intros
    exact distCopies_of_dSymbol rfl rfl

/-- Settles O36: each row is a symbol whose base is the table's (R93). -/
theorem distanceSymbolsTooFar : Obligations.DistanceSymbolsTooFar := by
  unfold Obligations.DistanceSymbolsTooFar
  and_intros
  all_goals
    intros
    exact distTooFar_of_dSymbol rfl rfl

end Sys2Proof.Machine
end

section
/-! MATCH l, d (30_encoding.md R111): the ranges of the length symbols and of the distance symbols follow one another,
so some symbol's range holds `l` and some symbol's range holds `d`. -/

namespace Sys2Proof

/-- Among intervals that follow one another, the first whose end is past `v` is the one that holds `v`. -/
theorem exists_find?_range_of_contiguous {base width : Nat → Nat} {m v : Nat}
    (hnext : ∀ k < m, base (k + 1) = base k + width k) (hlo : base 0 ≤ v) (hhi : v < base m + width m) :
    ∃ k ≤ m, (List.range (m + 1)).find? (fun k => decide (v < base k + width k)) = some k ∧
      base k ≤ v ∧ v < base k + width k := by
  cases hf : (List.range (m + 1)).find? (fun k => decide (v < base k + width k)) with
  | none => simpa [hhi] using List.find?_range_eq_none.mp hf m (Nat.lt_succ_self m)
  | some k =>
    obtain ⟨hk, hmem, hbefore⟩ := List.find?_range_eq_some.mp hf
    have hkm : k ≤ m := Nat.lt_succ_iff.mp (List.mem_range.mp hmem)
    refine ⟨k, hkm, rfl, ?_, of_decide_eq_true hk⟩
    cases k with
    | zero => exact hlo
    | succ j =>
      have hj : base j + width j ≤ v := by simpa using hbefore j (Nat.lt_succ_self j)
      rw [hnext j hkm]
      exact hj

/-- The length symbol of MATCH l, d is one whose range holds `l` (30_encoding.md R92, R111). -/
theorem lengthSymbolOf_spec {l : Nat} (hmin : 3 ≤ l) (hmax : l ≤ 65538) :
    257 ≤ lengthSymbolOf l ∧ lengthSymbolOf l ≤ 285 ∧ lbase (lengthSymbolOf l) ≤ l ∧
      l < lbase (lengthSymbolOf l) + 2 ^ lext (lengthSymbolOf l) := by
  by_cases hl : 258 < l
  · have hs : lengthSymbolOf l = 285 := if_pos hl
    rw [hs]
    exact ⟨by decide, le_rfl, hmin, Nat.lt_succ_of_le hmax⟩
  · have hnext : ∀ k < 27, lbase (k + 1 + 257) = lbase (k + 257) + 2 ^ lext (k + 257) := by decide
    have hhi : l < lbase (27 + 257) + 2 ^ lext (27 + 257) := Nat.lt_succ_of_le (Nat.le_of_not_lt hl)
    obtain ⟨k, hk, hfind, hrange⟩ := exists_find?_range_of_contiguous (base := fun k => lbase (k + 257))
      (width := fun k => 2 ^ lext (k + 257)) hnext hmin hhi
    have hs : lengthSymbolOf l = k + 257 := by
      rw [lengthSymbolOf, if_neg hl, List.find?_map]
      simp only [Function.comp_def]
      rw [hfind]
      rfl
    rw [hs]
    exact ⟨by omega, by omega, hrange⟩

/-- The distance symbol of MATCH l, d is one whose range holds `d` (R93, R111). -/
theorem distSymbolOf_spec {d : Nat} (hmin : 1 ≤ d) (hmax : d ≤ 65536) :
    distSymbolOf d < 32 ∧ dbase (distSymbolOf d) ≤ d ∧
      d < dbase (distSymbolOf d) + 2 ^ dext (distSymbolOf d) := by
  have hnext : ∀ k < 31, dbase (k + 1) = dbase k + 2 ^ dext k := by decide
  obtain ⟨k, hk, hfind, hrange⟩ := exists_find?_range_of_contiguous (base := dbase) (width := fun k => 2 ^ dext k)
    hnext hmin (Nat.lt_succ_of_le hmax)
  have hs : distSymbolOf d = k := congrArg (Option.getD · 31) hfind
  rw [hs]
  exact ⟨Nat.lt_succ_of_le hk, hrange⟩

/-- A length symbol with a field that fits has an element, and it is that symbol and field (R92). -/
theorem exists_lenInstr {s x : Nat} (hs : 257 ≤ s) (hs' : s ≤ 285) (hx : x < 2 ^ lext s) :
    ∃ i, lenInstr s x = some i ∧ llSymbol i = some (s, x) := by
  rcases Nat.lt_or_ge s 265 with hplain | hfield
  · interval_cases s
    all_goals
      obtain rfl : x = 0 := Nat.lt_one_iff.mp hx
      exact ⟨_, rfl, rfl⟩
  · interval_cases s
    all_goals exact ⟨_, rfl, congrArg (fun y => some (_, y)) (Nat.mod_eq_of_lt hx)⟩

/-- A D symbol with a field that fits has an element, and it is that symbol and field (R93). -/
theorem exists_distInstr {t x : Nat} (ht : t < 32) (hx : x < 2 ^ dext t) :
    ∃ i, distInstr t x = some i ∧ dSymbol i = some (t, x) := by
  rcases Nat.lt_or_ge t 4 with hplain | hfield
  · interval_cases t
    all_goals
      obtain rfl : x = 0 := Nat.lt_one_iff.mp hx
      exact ⟨_, rfl, rfl⟩
  · interval_cases t
    all_goals exact ⟨_, rfl, congrArg (fun y => some (_, y)) (Nat.mod_eq_of_lt hx)⟩

end Sys2Proof

namespace Sys2Proof.Machine

/-- Settles O60: the elements of the two symbols whose ranges hold `l` and `d`, with the differences as their fields. -/
theorem matchExpansionMeansTheMatch : Obligations.MatchExpansionMeansTheMatch := by
  intro l d hl hl' hd hd'
  obtain ⟨hs, hs', hle, hlt⟩ := lengthSymbolOf_spec hl hl'
  obtain ⟨ht, hdle, hdlt⟩ := distSymbolOf_spec hd hd'
  obtain ⟨i, hi, hsi⟩ := exists_lenInstr hs hs' (Nat.sub_lt_left_of_lt_add hle hlt)
  obtain ⟨j, hj, hsj⟩ := exists_distInstr ht (Nat.sub_lt_left_of_lt_add hdle hdlt)
  refine ⟨i, j, ?_, lengthHeld_of_llSymbol hsi hs hs' (Nat.add_sub_of_le hle).symm,
    distCopies_of_dSymbol hsj (Nat.add_sub_of_le hdle).symm⟩
  rw [expandMatch, hi, hj]
  rfl

end Sys2Proof.Machine
end

section
/-! The fixed codes (30_encoding.md R90, R91): in a table of runs of equal lengths each run has consecutive codewords
(41_huffman.md R130). -/

namespace Sys2Proof

/-- `n` codewords of `l` bits, consecutive in code from `c` on and in symbol from `s` on. -/
def Code.run (c l s n : Nat) : Code := (List.range n).map fun i => ⟨c + i, l, s + i⟩

theorem Code.run_succ (c l s n : Nat) : Code.run c l s (n + 1) = ⟨c, l, s⟩ :: Code.run (c + 1) l (s + 1) n := by
  simp [Code.run, List.range_succ_eq_map, Function.comp_def, Nat.add_right_comm, Nat.add_assoc]

theorem Code.codeword_cons (w : Codeword) (T : Code) (v : Nat) :
    Code.codeword (w :: T) v = if w.sym = v then some w else Code.codeword T v := by
  by_cases h : w.sym = v <;> simp [Code.codeword, h]

theorem Code.codeword_append (T U : Code) (v : Nat) :
    Code.codeword (T ++ U) v = (T.codeword v).or (U.codeword v) := List.find?_append

/-- A run gives its symbols, and no others, their codewords. -/
theorem Code.codeword_run (c l s n v : Nat) :
    (Code.run c l s n).codeword v = if s ≤ v ∧ v < s + n then some ⟨c + (v - s), l, v⟩ else none := by
  induction n generalizing c s with
  | zero => rw [if_neg (by omega)]; rfl
  | succ n ih =>
    rw [Code.run_succ, Code.codeword_cons, ih]
    rcases Nat.lt_trichotomy s v with hlt | rfl | hgt
    · have hc : c + 1 + (v - (s + 1)) = c + (v - s) := by omega
      have hin : s + 1 ≤ v ∧ v < s + 1 + n ↔ s ≤ v ∧ v < s + (n + 1) := by omega
      simp only [hc, hin, if_neg hlt.ne]
    · simp
    · rw [if_neg hgt.ne', if_neg (by omega), if_neg (by omega)]

/-- Equal lengths in a row get a run of codewords, from the next free value of that length on (R130). -/
theorem assignFrom_replicate_append {l : CodeLen} (hl : l ≠ 0) {next : List Nat} (hnext : l.toNat < next.length)
    (s n : Nat) (ls : List CodeLen) :
    assignFrom s next (List.replicate n l ++ ls) =
      Code.run (next.getD l.toNat 0) l.toNat s n ++
        assignFrom (s + n) (next.set l.toNat (next.getD l.toNat 0 + n)) ls := by
  induction n generalizing s next with
  | zero =>
    have hset : next.set l.toNat next[l.toNat] = next := List.set_getElem_self hnext
    simp [Code.run, hnext, hset]
  | succ n ih =>
    rw [List.replicate_succ, List.cons_append, assignFrom, if_neg hl, ih (by simpa using hnext), Code.run_succ]
    simp [hnext, Nat.add_assoc, Nat.add_comm 1]

/-- The first codeword of each length of the fixed LL code (R129, 30_encoding.md R90). -/
theorem firstCodes_fixedLL :
    firstCodes fixedLL = [0, 0, 0, 0, 0, 0, 0, 0, 0x30, 0x190, 1024, 2048, 4096, 8192, 16384, 32768] := by
  simp [firstCodes, firstCodesFrom, countLen, fixedLL, Config.maxCodeLen, List.countP_replicate, -List.reduceReplicate]

/-- The first codeword of each length of the fixed D code (R91, R129). -/
theorem firstCodes_fixedD :
    firstCodes fixedD = [0, 0, 0, 0, 0, 0, 64, 128, 256, 512, 1024, 2048, 4096, 8192, 16384, 32768] := by
  simp [firstCodes, firstCodesFrom, countLen, fixedD, Config.maxCodeLen, List.countP_replicate, -List.reduceReplicate]

/-- The four runs of the fixed LL code (30_encoding.md R90). -/
theorem codeOf_fixedLL :
    codeOf fixedLL = Code.run 0x30 8 0 144 ++
      (Code.run 0x190 9 144 112 ++ (Code.run 0 7 256 24 ++ Code.run 0xC0 8 280 8)) := by
  have hruns : fixedLL =
      List.replicate 144 8 ++ (List.replicate 112 9 ++ (List.replicate 24 7 ++ (List.replicate 8 8 ++ []))) := by
    simp only [fixedLL, List.append_assoc, List.append_nil]
  rw [codeOf, firstCodes_fixedLL, hruns, assignFrom_replicate_append (by decide) (by decide),
    assignFrom_replicate_append (by decide) (by decide), assignFrom_replicate_append (by decide) (by decide),
    assignFrom_replicate_append (by decide) (by decide)]
  simp [assignFrom]

/-- The one run of the fixed D code (R91). -/
theorem codeOf_fixedD : codeOf fixedD = Code.run 0 5 0 32 := by
  have hrun : fixedD = List.replicate 32 5 ++ [] := (List.append_nil _).symm
  rw [codeOf, firstCodes_fixedD, hrun, assignFrom_replicate_append (by decide) (by decide)]
  simp [assignFrom]

/-- Settles O22: a symbol's codeword is the one of the run that holds it. -/
theorem fixedCodewords : Obligations.FixedCodewords := by
  refine ⟨fun v hv => ?ll, fun v hv => ?d⟩
  case ll =>
    rw [codeOf_fixedLL]
    simp only [Code.codeword_append, Code.codeword_run]
    obtain h | h | h | h : v < 144 ∨ (144 ≤ v ∧ v < 256) ∨ (256 ≤ v ∧ v < 280) ∨ 280 ≤ v := by omega
    all_goals simp (disch := omega) [if_pos, if_neg]
  case d =>
    rw [codeOf_fixedD, Code.codeword_run, if_pos ⟨Nat.zero_le v, by omega⟩]
    simp

end Sys2Proof
end

section
/-! The bit reader's operations run as instructions of their own: READ_BITS without its bits (40_bit_reader.md R121),
FEED (R115), ALIGN_TO_BYTE (R117) and AVAIL (R118). -/

namespace Sys2Proof

/-- ALIGN_TO_BYTE goes to the next byte boundary at the farthest (R117). -/
theorem Reader.align_bitpos_bounds (r : Reader) : r.bitpos ≤ r.align.bitpos ∧ r.align.bitpos < r.bitpos + 8 := by
  unfold Reader.align
  split
  · exact ⟨Nat.le_refl _, by omega⟩
  · next h0 =>
    have hpos : r.bitoff.toNat ≠ 0 := fun h => h0 (BitVec.eq_of_toNat_eq h)
    exact ⟨Nat.le_add_right .., Nat.add_lt_add_left (by omega) _⟩

end Sys2Proof

namespace Sys2Proof.Machine

/-- READ_BITS that lacks bits suspends (R121). -/
theorem execReadBits_of_lacking {n : Nat} {s : State} (h : s.rd.avail < n) :
    execReadBits n s = .next { s.suspend with opRes := .suspended } := by
  rw [execReadBits, Reader.readBits, if_pos h]

/-- A legal state inside a unit differs from its rollback point in the reader and `bfinal` only, so these are all that
a suspension restores (10_state.md R39, 44_fsm_host.md R192). -/
theorem Inv.suspend_inUnit {s : State} (h : Inv s) (hin : s.phase.inUnit = true) :
    ∃ k, s.snap = some k ∧
      s.suspend = { s with
        rd := k.rd, bfinal := k.bfinal, phase := .idle, snap := none, hdr := DynHeader.blank, mlen := 0, out := [],
        results := s.results ++ [.ok s.out] } := by
  have hcall : s.phase ≠ .idle := fun hp => by simp [hp, Phase.inUnit] at hin
  obtain ⟨rd, f, -, hsnap⟩ := h.unitSnap hin
  refine ⟨_, hsnap, ?_⟩
  rw [State.suspend_running hcall hsnap]
  simp [State.capture]

/-- Settles O15: the read suspends, and a suspension undoes the unit under way, if there is one. -/
theorem readBitsSuspends : Obligations.ReadBitsSuspends := by
  intro n s hlack
  have hexec : exec (.readBits n) s = .next { s.suspend with opRes := .suspended } := execReadBits_of_lacking hlack
  refine ⟨fun hidle => ?_, fun hinv hin => ?_⟩
  · rw [hexec, State.suspend_idle hidle]
  · obtain ⟨k, hk, hs⟩ := hinv.suspend_inUnit hin
    exact ⟨k, hk, by rw [hexec, hs]⟩

/-- Settles O16, by the law of FEED on the unconsumed bits (`Reader.feed_bits`). -/
theorem feedAppendsBytes : Obligations.FeedAppendsBytes :=
  fun chunk _ => ⟨rfl, Reader.feed_bits chunk⟩

/-- Settles O17: the boundary reached is within 8 bits, and the bits before it are the ones that go. -/
theorem alignDiscardsPartialByte : Obligations.AlignDiscardsPartialByte := by
  intro s
  refine ⟨s.rd.align, rfl, rfl, fun hr => ?_⟩
  obtain ⟨hle, hlt⟩ := s.rd.align_bitpos_bounds
  have hmod : s.rd.align.bitpos % 8 = 0 := by rw [hr.align.2, Reader.align_bitoff]; rfl
  exact ⟨s.rd.align_bitoff, hmod, hle, hlt, Reader.align_bits hr.1⟩

/-- Settles O18: AVAIL's count is the number of unconsumed bits (`Reader.bits_length`). -/
theorem availCountsBits : Obligations.AvailCountsBits :=
  fun s => ⟨rfl, s.rd.bits_length⟩

end Sys2Proof.Machine
end

section
/-! The canonical code of a length table in closed form: the first codeword of each length (41_huffman.md R129), and each
symbol's codeword from it (R130). -/

namespace Sys2Proof

open Machine

/-! ### First codes -/

@[simp] theorem countLen_zero (lens : List CodeLen) : countLen lens 0 = 0 := rfl

/-- `count[b]` is the number of symbols of length `b` (R126). -/
theorem countLen_eq_count {l : CodeLen} (hl : l ≠ 0) (lens : List CodeLen) : countLen lens l.toNat = lens.count l := by
  have h0 : l.toNat ≠ 0 := fun h => hl (BitVec.eq_of_toNat_eq h)
  rw [countLen, if_neg h0, List.count]
  refine List.countP_congr fun x _ => ?_
  simp only [beq_iff_eq]
  exact BitVec.toNat_inj

@[simp] theorem firstCode_zero (lens : List CodeLen) : firstCode lens 0 = 0 := rfl

/-- The closed form of the first codes meets R129's recurrence. -/
theorem firstCode_succ (lens : List CodeLen) (b : Nat) :
    firstCode lens (b + 1) = 2 * (firstCode lens b + countLen lens b) := by
  rw [firstCode, List.sum_range_succ, Nat.mul_add, firstCode, ← List.sum_map_mul_left]
  congr 1
  · refine congrArg List.sum (List.map_congr_left fun j hj => ?_)
    rw [Nat.succ_sub (List.mem_range.mp hj).le, Nat.pow_succ]
    split
    · rfl
    · ring
  · rw [countLen]
    split
    · rfl
    · rw [Nat.add_sub_cancel_left, Nat.pow_one, Nat.mul_comm]

/-- R129's recurrence gives the first code of each length. -/
theorem firstCodesFrom_eq (lens : List CodeLen) (fuel b : Nat) :
    firstCodesFrom (countLen lens) fuel (b + 1) (firstCode lens b) =
      (List.range fuel).map fun i => firstCode lens (b + 1 + i) := by
  induction fuel generalizing b with
  | zero => rfl
  | succ fuel ih =>
    rw [firstCodesFrom, Nat.add_sub_cancel, ← firstCode_succ, ih, List.range_succ_eq_map]
    simp [Function.comp_def, Nat.add_right_comm b, Nat.add_assoc]

theorem firstCodes_eq (lens : List CodeLen) : firstCodes lens = (List.range 16).map (firstCode lens) := by
  rw [firstCodes, Config.maxCodeLen, ← firstCode_zero lens, firstCodesFrom_eq, List.range_succ_eq_map (n := 15)]
  simp [Function.comp_def, Nat.add_comm 1]

/-! ### Codewords -/

/-- The codeword of length `l` at place `i` of a table whose first entry is symbol `sym`, from the next free values at
that entry (R130). -/
def canonicalWord (sym : Nat) (next : List Nat) (lens : List CodeLen) (i : Nat) (l : CodeLen) : Codeword :=
  ⟨next.getD l.toNat 0 + (lens.take i).count l, l.toNat, sym + i⟩

/-- An entry 0 takes no value. -/
theorem canonicalWord_zero_cons {l : CodeLen} (hl : l ≠ 0) (sym : Nat) (next : List Nat) (lens : List CodeLen)
    (i : Nat) : canonicalWord sym next (0 :: lens) (i + 1) l = canonicalWord (sym + 1) next lens i l := by
  rw [canonicalWord, List.take_succ_cons, List.count_cons_of_ne hl.symm, Nat.add_comm i, ← Nat.add_assoc]
  rfl

/-- An entry takes the next free value of its length. -/
theorem canonicalWord_cons (sym : Nat) {next : List Nat} {x : CodeLen} (hx : x.toNat < next.length)
    (lens : List CodeLen) (i : Nat) (l : CodeLen) :
    canonicalWord sym next (x :: lens) (i + 1) l =
      canonicalWord (sym + 1) (next.set x.toNat (next.getD x.toNat 0 + 1)) lens i l := by
  simp only [canonicalWord, List.take_succ_cons, Codeword.mk.injEq, true_and]
  refine ⟨?_, by omega⟩
  by_cases hl : x = l
  · subst hl
    rw [List.count_cons_self]
    simp [hx]
    omega
  · rw [List.count_cons_of_ne hl]
    have : x.toNat ≠ l.toNat := fun h => hl (BitVec.eq_of_toNat_eq h)
    simp [List.getElem?_set_ne this]

/-- The codewords that R130's loop makes: one for each entry that is not 0. -/
theorem mem_assignFrom {sym : Nat} {next : List Nat} (hnext : 15 < next.length) {lens : List CodeLen} {w : Codeword} :
    w ∈ assignFrom sym next lens ↔ ∃ i l, lens[i]? = some l ∧ l ≠ 0 ∧ w = canonicalWord sym next lens i l := by
  induction lens generalizing sym next with
  | nil => simp [assignFrom]
  | cons x lens ih =>
    by_cases hx : x = 0
    · subst hx
      rw [assignFrom, if_pos rfl, ih hnext]
      constructor
      · rintro ⟨i, l, hi, hl, rfl⟩
        exact ⟨i + 1, l, hi, hl, (canonicalWord_zero_cons hl ..).symm⟩
      · rintro ⟨_ | i, l, hi, hl, rfl⟩
        · exact absurd (Option.some_inj.mp hi).symm hl
        · exact ⟨i, l, hi, hl, canonicalWord_zero_cons hl ..⟩
    · have hlt : x.toNat < next.length := by omega
      rw [assignFrom, if_neg hx, List.mem_cons, ih (by simpa using hnext)]
      constructor
      · rintro (rfl | ⟨i, l, hi, hl, rfl⟩)
        · exact ⟨0, x, rfl, hx, by simp [canonicalWord]⟩
        · exact ⟨i + 1, l, hi, hl, (canonicalWord_cons sym hlt lens i l).symm⟩
      · rintro ⟨_ | i, l, hi, hl, rfl⟩
        · cases hi
          exact .inl (by simp [canonicalWord])
        · exact .inr ⟨i, l, hi, hl, canonicalWord_cons sym hlt lens i l⟩

/-- The codewords of a table (R129, R130). -/
theorem mem_codeOf {lens : List CodeLen} {w : Codeword} :
    w ∈ codeOf lens ↔
      ∃ v l, lens[v]? = some l ∧ l ≠ 0 ∧ w = ⟨firstCode lens l.toNat + (lens.take v).count l, l.toNat, v⟩ := by
  rw [codeOf, mem_assignFrom (by simp [firstCodes_eq])]
  have hword : ∀ v l, canonicalWord 0 (firstCodes lens) lens v l =
      ⟨firstCode lens l.toNat + (lens.take v).count l, l.toNat, v⟩ := fun v l => by
    have := l.isLt
    simp [canonicalWord, firstCodes_eq, this]
  simp only [hword]

/-! ### Symbols -/

theorem Code.symbolsAscend_iff {T : Code} : T.symbolsAscend = true ↔ T.Pairwise fun w v => w.sym < v.sym := by
  induction T with
  | nil => simp [Code.symbolsAscend]
  | cons w T ih => simp [Code.symbolsAscend, ih]

/-- Where symbols ascend, a symbol's codeword is the only one it has. -/
theorem Code.codeword_of_mem {T : Code} (h : T.symbolsAscend = true) {w : Codeword} (hw : w ∈ T) :
    T.codeword w.sym = some w := by
  rw [Code.symbolsAscend_iff] at h
  induction h with
  | nil => cases hw
  | cons hlt _ ih =>
    rw [Code.codeword_cons]
    rcases List.mem_cons.mp hw with rfl | hw
    · rw [if_pos rfl]
    · rw [if_neg (hlt w hw).ne, ih hw]

/-- R130 takes the symbols in ascending order. -/
theorem assignFrom_symbolsAscend (sym : Nat) (next : List Nat) (lens : List CodeLen) :
    (assignFrom sym next lens).symbolsAscend = true ∧ ∀ w ∈ assignFrom sym next lens, sym ≤ w.sym := by
  induction lens generalizing sym next with
  | nil => simp [assignFrom, Code.symbolsAscend]
  | cons x lens ih =>
    rw [assignFrom]
    split
    · obtain ⟨hasc, hle⟩ := ih (sym + 1) next
      exact ⟨hasc, fun w hw => (Nat.le_succ sym).trans (hle w hw)⟩
    · obtain ⟨hasc, hle⟩ := ih (sym + 1) (next.set x.toNat (next.getD x.toNat 0 + 1))
      refine ⟨?_, ?_⟩
      · simp only [Code.symbolsAscend, hasc, Bool.and_true, List.all_eq_true, decide_eq_true_eq]
        exact hle
      · exact List.forall_mem_cons.mpr ⟨le_rfl, fun w hw => (Nat.le_succ sym).trans (hle w hw)⟩

theorem codeOf_symbolsAscend (lens : List CodeLen) : (codeOf lens).symbolsAscend = true :=
  (assignFrom_symbolsAscend ..).1

/-- Settles O20: the code's members in closed form (`mem_codeOf`), each the one codeword of its symbol. -/
theorem canonicalAssignment : Obligations.CanonicalAssignment := by
  intro lens v l hv
  refine ⟨fun hl => ?zero, fun hl => ?nonzero⟩
  case zero =>
    cases hc : (codeOf lens).codeword v with
    | none => rfl
    | some w =>
      obtain ⟨hw, hsym⟩ := Code.codeword_eq_some hc
      obtain ⟨u, m, hu, hm, rfl⟩ := mem_codeOf.mp hw
      subst hsym
      rw [hv] at hu
      exact absurd (Option.some_inj.mp hu ▸ hl) hm
  case nonzero => exact Code.codeword_of_mem (codeOf_symbolsAscend lens) (mem_codeOf.mpr ⟨v, l, hv, hl, rfl⟩)

end Sys2Proof
end

section
/-! The code space (41_huffman.md R127): what BUILD's loop leaves of it is what the sum of the codewords' shares leaves,
BUILD accepts by that sum (R128), and no codeword within it begins another (30_encoding.md R94). -/

namespace Sys2Proof

open Machine

/-! ### The space used -/

/-- How many of the `2 ^ b` values of `b` bits begin with, or are, a codeword of a table, as R129 lays them out. -/
def usedSpace (lens : List CodeLen) (b : Nat) : Nat := firstCode lens b + countLen lens b

@[simp] theorem usedSpace_zero (lens : List CodeLen) : usedSpace lens 0 = 0 := rfl

theorem firstCode_succ_eq_usedSpace (lens : List CodeLen) (b : Nat) : firstCode lens (b + 1) = 2 * usedSpace lens b :=
  firstCode_succ lens b

theorem usedSpace_succ (lens : List CodeLen) (b : Nat) :
    usedSpace lens (b + 1) = 2 * usedSpace lens b + countLen lens (b + 1) := by
  rw [usedSpace, firstCode_succ_eq_usedSpace]

/-- Each shorter codeword leaves its share of the longer values to no other one. -/
theorem usedSpace_mul_two_pow_le (lens : List CodeLen) (b k : Nat) :
    usedSpace lens b * 2 ^ k ≤ usedSpace lens (b + k) := by
  induction k with
  | zero => simp
  | succ k ih => rw [← Nat.add_assoc, usedSpace_succ, Nat.pow_succ, ← Nat.mul_assoc]; omega

/-- A longer codeword comes after all that begin with a shorter one (R130). -/
theorem usedSpace_mul_two_pow_le_firstCode (lens : List CodeLen) (b k : Nat) :
    usedSpace lens b * 2 ^ (k + 1) ≤ firstCode lens (b + (k + 1)) := by
  have := usedSpace_mul_two_pow_le lens b k
  rw [← Nat.add_assoc, firstCode_succ_eq_usedSpace, Nat.pow_succ, ← Nat.mul_assoc]
  omega

theorem countLen_cons (x : CodeLen) (lens : List CodeLen) (b : Nat) :
    countLen (x :: lens) (b + 1) = countLen lens (b + 1) + if x.toNat = b + 1 then 1 else 0 := by
  simp [countLen, List.countP_cons]

/-- A codeword takes its share of the values of each length from its own on. -/
theorem usedSpace_cons (x : CodeLen) (lens : List CodeLen) (b : Nat) :
    usedSpace (x :: lens) b = usedSpace lens b + if x ≠ 0 ∧ x.toNat ≤ b then 2 ^ (b - x.toNat) else 0 := by
  have h0 : x ≠ 0 ↔ x.toNat ≠ 0 := by rw [ne_eq, ← BitVec.toNat_inj]; rfl
  simp only [h0]
  induction b with
  | zero => simp
  | succ b ih =>
    rw [usedSpace_succ, usedSpace_succ, countLen_cons, ih]
    obtain hlt | heq | hgt := Nat.lt_trichotomy x.toNat (b + 1)
    · have hle : x.toNat ≤ b := Nat.le_of_lt_succ hlt
      rw [if_neg hlt.ne, Nat.succ_sub hle, Nat.pow_succ]
      simp only [hle, hlt.le, and_true]
      split <;> omega
    · simp [heq]
      omega
    · simp [hgt.ne', Nat.not_le.mpr hgt, Nat.not_le.mpr (Nat.lt_of_succ_lt hgt)]

/-- All of a table's codewords take the sum R127 names. -/
theorem usedSpace_max (lens : List CodeLen) : usedSpace lens 15 = kraftSum lens := by
  induction lens with
  | nil => rfl
  | cons x lens ih =>
    have hle : x.toNat ≤ 15 := by have := x.isLt; omega
    rw [usedSpace_cons, ih, Nat.add_comm]
    simp only [kraftSum, List.map_cons, List.sum_cons, hle, and_true, ne_eq, ite_not]

/-- R127's loop from a length on: it fails exactly when the space is used up in the end, and answers what is left. -/
theorem codeSpace_eq (lens : List CodeLen) (fuel b left : Nat) (h : left + usedSpace lens b = 2 ^ b) :
    codeSpace (countLen lens) fuel (b + 1) left =
      if usedSpace lens (b + fuel) ≤ 2 ^ (b + fuel) then some (2 ^ (b + fuel) - usedSpace lens (b + fuel)) else none := by
  induction fuel generalizing b left with
  | zero => rw [codeSpace, Nat.add_zero, ← h, if_pos (by omega), Nat.add_sub_cancel]
  | succ fuel ih =>
    have hsucc := usedSpace_succ lens b
    have hpow : 2 ^ (b + 1) = 2 * 2 ^ b := by ring
    rw [codeSpace, Nat.add_comm fuel, ← Nat.add_assoc]
    by_cases hover : 2 * left < countLen lens (b + 1)
    · have hlt : 2 ^ (b + 1) * 2 ^ fuel < usedSpace lens (b + 1) * 2 ^ fuel :=
        Nat.mul_lt_mul_of_pos_right (by omega) (Nat.two_pow_pos fuel)
      have hle := usedSpace_mul_two_pow_le lens (b + 1) fuel
      rw [if_pos hover, if_neg (by rw [Nat.pow_add]; omega)]
    · rw [if_neg hover, ih _ _ (by omega)]

/-- R127 decides by the sum. -/
theorem leftover_eq (lens : List CodeLen) :
    leftover lens = if kraftSum lens ≤ 2 ^ 15 then some (2 ^ 15 - kraftSum lens) else none := by
  rw [leftover, Config.maxCodeLen, codeSpace_eq lens 15 0 1 rfl, Nat.zero_add, usedSpace_max]

/-! ### The tables BUILD accepts -/

theorem foldl_max_le (lens : List CodeLen) (a n : Nat) :
    lens.foldl (fun m l => max m l.toNat) a ≤ n ↔ a ≤ n ∧ ∀ l ∈ lens, l.toNat ≤ n := by
  induction lens generalizing a with
  | nil => simp
  | cons x lens ih => simp [ih, and_assoc]

theorem maxLen_le (lens : List CodeLen) (n : Nat) : maxLen lens ≤ n ↔ ∀ l ∈ lens, l.toNat ≤ n := by
  simp [maxLen, foldl_max_le]

theorem maxLen_eq_zero {lens : List CodeLen} : maxLen lens = 0 ↔ ∀ l ∈ lens, l = 0 := by
  rw [← Nat.le_zero, maxLen_le]
  simp only [Nat.le_zero]
  exact forall₂_congr fun l _ => (BitVec.toNat_inj (y := 0#4))

theorem maxLen_eq_one {lens : List CodeLen} :
    maxLen lens = 1 ↔ (∀ l ∈ lens, l.toNat ≤ 1) ∧ (1 : CodeLen) ∈ lens := by
  rw [← maxLen_le]
  constructor
  · intro h
    refine ⟨h.le, by_contra fun hmem => ?_⟩
    have hzero : maxLen lens ≤ 0 := (maxLen_le lens 0).mpr fun l hl => by
      have hne : l.toNat ≠ 1 := fun e => hmem ((BitVec.eq_of_toNat_eq (y := 1) e) ▸ hl)
      have := (maxLen_le lens 1).mp h.le l hl
      omega
    omega
  · rintro ⟨hle, hmem⟩
    exact hle.antisymm ((maxLen_le lens _).mp le_rfl 1 hmem)

/-- BUILD accepts by the sum and R128's cases. -/
theorem buildAccepts_iff {strict : Bool} {kind : CodeKind} {lens : List CodeLen} :
    buildAccepts strict kind lens = true ↔ TableAccepted strict kind lens := by
  have haccept : acceptIncomplete strict kind lens = true ↔ strict = false ∧
      ((kind ≠ .cl ∧ (∀ l ∈ lens, l.toNat ≤ 1) ∧ (1 : CodeLen) ∈ lens) ∨ (kind = .d ∧ ∀ l ∈ lens, l = 0)) := by
    rw [← maxLen_eq_one, ← maxLen_eq_zero]
    simp [acceptIncomplete]
  rw [buildAccepts, leftover_eq, TableAccepted, ← haccept]
  obtain hlt | heq | hgt := Nat.lt_trichotomy (kraftSum lens) (2 ^ 15)
  · have hleft : 2 ^ 15 - kraftSum lens ≠ 0 := by omega
    simp only [if_pos hlt.le, hlt.ne, hlt, false_or, true_and, Bool.or_eq_true, beq_iff_eq, hleft]
  · simp [heq]
  · simp only [if_neg (Nat.not_le.mpr hgt), hgt.ne', Nat.lt_asymm hgt, false_or, false_and, Bool.false_eq_true]

end Sys2Proof

namespace Sys2Proof.Machine

/-- A raise run as an instruction also leaves its cause in `opRes` (log entry 8); its effect on the rest is R225's. -/
theorem State.raise_effect_opRes (c : Cause) (s : State) (x : OpResult) :
    RaiseEffect c s { { s.raise c with opRes := x } with opRes := s.opRes } := by
  rw [← State.raise_opRes c s]
  exact State.raise_effect c s

theorem exec_build_of_accepted {kind : CodeKind} {lens : List CodeLen} {s : State}
    (h : TableAccepted s.cfg.strict kind lens) :
    exec (.build kind lens) s = .next { s with opRes := .code (codeOf lens) } := by
  have hexec : exec (.build kind lens) s = execBuild kind lens s := rfl
  rw [hexec, execBuild, buildCode, if_pos (buildAccepts_iff.mpr h)]

theorem exec_build_of_refused {kind : CodeKind} {lens : List CodeLen} {s : State}
    (h : ¬TableAccepted s.cfg.strict kind lens) :
    exec (.build kind lens) s = .next { s.raise kind.cause with opRes := .raised kind.cause } := by
  have hexec : exec (.build kind lens) s = execBuild kind lens s := rfl
  rw [hexec, execBuild, buildCode, if_neg (mt buildAccepts_iff.mp h)]

/-- Settles O19: BUILD accepts exactly the tables of R127's sum and R128's cases (`buildAccepts_iff`). -/
theorem buildAcceptsConsistentTables : Obligations.BuildAcceptsConsistentTables := by
  intro kind lens s _
  refine ⟨exec_build_of_accepted, fun h => ⟨_, exec_build_of_refused h, ?_⟩⟩
  have heffect := State.raise_effect_opRes kind.cause s (.raised kind.cause)
  cases kind <;> exact ⟨rfl, heffect⟩

end Sys2Proof.Machine

namespace Sys2Proof

open Machine

/-! ### Codewords that begin none other -/

theorem Code.prefixFree_iff {T : Code} :
    T.prefixFree = true ↔ T.Pairwise fun w v => v.begins w = false ∧ w.begins v = false := by
  induction T with
  | nil => simp [Code.prefixFree]
  | cons w T ih => simp [Code.prefixFree, ih]

/-- Of the symbols of one length a later one has more before it. -/
theorem count_take_lt_count_take {lens : List CodeLen} {v u : Nat} {l : CodeLen} (hv : lens[v]? = some l)
    (hlt : v < u) : (lens.take v).count l < (lens.take u).count l := by
  have hsucc : (lens.take (v + 1)).count l = (lens.take v).count l + 1 := by
    rw [List.take_add_one, hv]
    simp
  have hle : (lens.take (v + 1)).count l ≤ (lens.take u).count l := (List.take_sublist_take_left hlt).count_le l
  omega

/-- The codewords of a length are among the values that it uses, after those that begin with a shorter codeword. -/
theorem codeOf_bounds {lens : List CodeLen} {w : Codeword} (hw : w ∈ codeOf lens) :
    firstCode lens w.len ≤ w.code ∧ w.code < usedSpace lens w.len := by
  obtain ⟨v, l, hv, hl, rfl⟩ := mem_codeOf.mp hw
  refine ⟨Nat.le_add_right .., Nat.add_lt_add_left ?_ _⟩
  obtain ⟨hlt, -⟩ := List.getElem?_eq_some_iff.mp hv
  have hcount := count_take_lt_count_take hv hlt
  rw [List.take_length] at hcount
  exact hcount.trans_eq (countLen_eq_count hl lens).symm

/-- Codewords of one length with one value are one codeword. -/
theorem codeOf_eq_of_code_eq {lens : List CodeLen} {v w : Codeword} (hv : v ∈ codeOf lens) (hw : w ∈ codeOf lens)
    (hlen : v.len = w.len) (hcode : v.code = w.code) : v = w := by
  obtain ⟨a, l, ha, -, rfl⟩ := mem_codeOf.mp hv
  obtain ⟨b, m, hb, -, rfl⟩ := mem_codeOf.mp hw
  obtain rfl := BitVec.eq_of_toNat_eq hlen
  obtain hlt | rfl | hgt := Nat.lt_trichotomy a b
  · exact absurd (Nat.add_left_cancel hcode) (count_take_lt_count_take ha hlt).ne
  · rfl
  · exact absurd (Nat.add_left_cancel hcode) (count_take_lt_count_take hb hgt).ne'

/-- A longer codeword lies past the values that begin with a shorter one, so no codeword begins another (R130). -/
theorem codeOf_eq_of_begins {lens : List CodeLen} {v w : Codeword} (hv : v ∈ codeOf lens) (hw : w ∈ codeOf lens)
    (h : v.begins w = true) : v = w := by
  obtain ⟨hle, hcode⟩ := Codeword.begins_iff.mp h
  obtain heq | hlt := Nat.eq_or_lt_of_le hle
  · exact codeOf_eq_of_code_eq hv hw heq (by rw [← hcode, heq, Nat.sub_self, Nat.shiftRight_zero])
  · obtain ⟨k, hk⟩ := Nat.exists_eq_add_of_lt hlt
    have hused := usedSpace_mul_two_pow_le_firstCode lens v.len k
    rw [← Nat.add_assoc, ← hk] at hused
    have hshift : w.len - v.len = k + 1 := by omega
    have hge : usedSpace lens v.len ≤ w.code >>> (k + 1) := by
      rw [Nat.shiftRight_eq_div_pow, Nat.le_div_iff_mul_le (Nat.two_pow_pos _)]
      exact hused.trans (codeOf_bounds hw).1
    rw [hshift] at hcode
    exact absurd (hcode ▸ hge) (Nat.not_le.mpr (codeOf_bounds hv).2)

theorem codeOf_prefixFree (lens : List CodeLen) : (codeOf lens).prefixFree = true := by
  refine Code.prefixFree_iff.mpr ((Code.symbolsAscend_iff.mp (codeOf_symbolsAscend lens)).imp_of_mem ?_)
  intro w v hw hv hlt
  refine ⟨Bool.eq_false_iff.mpr fun h => ?_, Bool.eq_false_iff.mpr fun h => ?_⟩
  · exact hlt.ne' (congrArg Codeword.sym (codeOf_eq_of_begins hv hw h))
  · exact hlt.ne (congrArg Codeword.sym (codeOf_eq_of_begins hw hv h))

/-- In a table that is not over-subscribed the codewords of a length fit its values (R127). -/
theorem usedSpace_le_two_pow {lens : List CodeLen} (h : kraftSum lens ≤ 2 ^ 15) {b : Nat} (hb : b ≤ 15) :
    usedSpace lens b ≤ 2 ^ b := by
  obtain ⟨k, hk⟩ := Nat.exists_eq_add_of_le hb
  have hle := usedSpace_mul_two_pow_le lens b k
  rw [← hk, usedSpace_max] at hle
  rw [hk, Nat.pow_add] at h
  exact Nat.le_of_mul_le_mul_right (hle.trans h) (Nat.two_pow_pos k)

theorem CodeKind.size_le (kind : CodeKind) : kind.size ≤ CodeKind.size .ll := by cases kind <;> decide

theorem kraftSum_le_of_accepted {strict : Bool} {kind : CodeKind} {lens : List CodeLen}
    (h : TableAccepted strict kind lens) : kraftSum lens ≤ 2 ^ 15 :=
  h.elim (·.le) (·.1.le)

/-- A codeword of a table that is not over-subscribed is one of R125's. -/
theorem codeword_wf_of_mem_codeOf {lens : List CodeLen} (hsize : lens.length ≤ CodeKind.size .ll)
    (hsum : kraftSum lens ≤ 2 ^ 15) {w : Codeword} (hw : w ∈ codeOf lens) : w.wf = true := by
  have hcode := (codeOf_bounds hw).2
  obtain ⟨v, l, hv, hl, rfl⟩ := mem_codeOf.mp hw
  obtain ⟨hsym, -⟩ := List.getElem?_eq_some_iff.mp hv
  have hpos : 1 ≤ l.toNat := Nat.one_le_iff_ne_zero.mpr fun h => hl (BitVec.eq_of_toNat_eq h)
  have hmax : l.toNat ≤ 15 := Nat.le_of_lt_succ l.isLt
  simp only [Codeword.wf, Bool.and_eq_true, decide_eq_true_eq]
  exact ⟨⟨⟨hpos, hmax⟩, hcode.trans_le (usedSpace_le_two_pow hsum hmax)⟩, hsym.trans_le hsize⟩

/-- Settles O21: a table BUILD accepts is not over-subscribed, so its codewords are R125's; that none begins another
(`codeOf_prefixFree`) and that symbols ascend holds of every table. -/
theorem builtCodesArePrefixCodes : Obligations.BuiltCodesArePrefixCodes := by
  intro strict kind lens T hsize hbuild
  obtain ⟨hacc, hcode⟩ | ⟨-, hnone⟩ := buildCode_cases strict kind lens
  · obtain rfl : codeOf lens = T := Option.some_inj.mp (hcode.symm.trans hbuild)
    have hsum := kraftSum_le_of_accepted (buildAccepts_iff.mp hacc)
    have hwords : (codeOf lens).all Codeword.wf = true :=
      List.all_eq_true.mpr fun _ hw => codeword_wf_of_mem_codeOf (hsize.trans_le kind.size_le) hsum hw
    rw [Code.wf, hwords, codeOf_prefixFree, codeOf_symbolsAscend]
    rfl
  · rw [hnone] at hbuild
    cases hbuild

end Sys2Proof
end

section
/-! What the decoder found is what the encoder writes: a field read, a codeword decoded and an element found have as
their encoding the bits that were taken (20_memory.md R53, R54; 30_encoding.md). -/

namespace Sys2Proof

/-! ### Fields and codewords -/

/-- `r'` is `r` after the bits `bs`, which stood next and are counted (20_memory.md R51, 10_state.md R23). -/
def Reader.Reads (bs : List Bool) (r r' : Reader) : Prop :=
  r.bits = bs ++ r'.bits ∧ r'.bitpos = r.bitpos + bs.length

theorem Reader.reads_nil (r : Reader) : Reader.Reads [] r r := ⟨rfl, rfl⟩

theorem Reader.Reads.trans {bs cs : List Bool} {r r' r'' : Reader} (h : Reader.Reads bs r r')
    (h' : Reader.Reads cs r' r'') : Reader.Reads (bs ++ cs) r r'' := by
  obtain ⟨hbits, hpos⟩ := h
  obtain ⟨hbits', hpos'⟩ := h'
  exact ⟨by rw [hbits, hbits', List.append_assoc], by rw [hpos', hpos, List.length_append, Nat.add_assoc]⟩

/-- READ_BITS that does not suspend has read its value's field (R53, 40_bit_reader.md R116). -/
theorem Reader.reads_of_readBits {n : Nat} {r : Reader} {p : Nat × Reader} (h : r.readBits n = some p) :
    p.1 < 2 ^ n ∧ Reader.Reads (fieldBits n p.1) r p.2 := by
  obtain ⟨-, hr⟩ | ⟨hn, hr⟩ := Reader.readBits_cases n r <;> rw [hr] at h <;> cases h
  obtain ⟨hlt, hbits, hpos⟩ := Reader.takeBits_spec hn
  exact ⟨hlt, hbits, by rw [hpos, fieldBits_length]⟩

/-- The field read is that of the operand made of it. -/
theorem Reader.reads_operand {n : Nat} {r : Reader} {p : Nat × Reader} (h : r.readBits n = some p) :
    Reader.Reads (fieldBits n (BitVec.ofNat n p.1).toNat) r p.2 := by
  obtain ⟨hlt, hreads⟩ := Reader.reads_of_readBits h
  rwa [BitVec.toNat_ofNat, Nat.mod_eq_of_lt hlt]

/-- DECODE's loop that finds a symbol has read the rest of a codeword of it, of which it had read all but that
(41_huffman.md R132). -/
theorem decodeSymFrom_sym {T : Code} {fuel c l s : Nat} {r r' : Reader}
    (h : decodeSymFrom T fuel c l r = .sym s r') :
    ∃ w ∈ T, w.sym = s ∧ ∃ k, w.len = l + k ∧ w.code >>> k = c ∧
      Reader.Reads (fieldBits k w.code).reverse r r' := by
  induction fuel generalizing c l r with
  | zero => cases h
  | succ fuel ih =>
    obtain ⟨v, hsym, hd⟩ | ⟨-, -, hd⟩ | ⟨-, -, -, hd⟩ | ⟨b, r₁, -, -, hread, hd⟩ := decodeSymFrom_succ T fuel c l r <;>
      rw [hd] at h
    · cases h
      obtain ⟨w, hw, hlen, hcode, hs⟩ := Code.symbol_eq_some hsym
      exact ⟨w, hw, hs, 0, hlen, hcode, Reader.reads_nil _⟩
    · cases h
    · cases h
    · obtain ⟨hb, hreads₁⟩ := Reader.reads_of_readBits hread
      obtain ⟨w, hw, hs, k, hlen, hcode, hreads⟩ := ih h
      have hval := two_mul_shiftRight_succ_add w.code k
      have hbit := Bool.toNat_lt (w.code.testBit k)
      have hnext : (w.code.testBit k).toNat = b := by omega
      refine ⟨w, hw, hs, k + 1, by omega, by omega, ?_⟩
      rw [fieldBits_succ_reverse, hnext]
      exact hreads₁.trans hreads

/-- DECODE that finds a symbol has read its codeword (R132, 20_memory.md R54). -/
theorem decodeSym_sym {T : Code} {s : Nat} {r r' : Reader} (h : decodeSym T r = .sym s r') :
    ∃ w ∈ T, w.sym = s ∧ Reader.Reads w.bits r r' := by
  obtain ⟨w, hw, hs, k, hlen, -, hreads⟩ := decodeSymFrom_sym h
  obtain rfl : w.len = k := by omega
  exact ⟨w, hw, hs, hreads⟩

theorem Code.symbolsAscend_of_wf {T : Code} (h : T.wf = true) : T.symbolsAscend = true := by
  simp only [Code.wf, Bool.and_eq_true] at h
  exact h.2

/-! ### Symbol and extra field of an element -/

/-- A symbol with its extra field put into its width. -/
theorem symbol_of_extra (s : Nat) {n x : Nat} (hx : x < 2 ^ n) :
    some (s, (BitVec.ofNat n x).toNat) = some (s, x) := by
  rw [BitVec.toNat_ofNat, Nat.mod_eq_of_lt hx]

/-- A symbol without an extra field. -/
theorem symbol_of_no_extra (s : Nat) {x : Nat} (hx : x < 2 ^ 0) : some (s, 0) = some (s, x) := by
  rw [Nat.lt_one_iff.mp hx]

/-- A symbol put into its width, without an extra field. -/
theorem symbol_of_value {n s x : Nat} (hs : s < 2 ^ n) (hx : x < 2 ^ 0) :
    some ((BitVec.ofNat n s).toNat, 0) = some (s, x) := by
  rw [BitVec.toNat_ofNat, Nat.mod_eq_of_lt hs, Nat.lt_one_iff.mp hx]

/-- A CL symbol and its extra field are those of the element they give (30_encoding.md R84). -/
theorem clSymbol_of_clInstr {s x : Nat} {i : Instr} (h : clInstr s x = some i) (hx : x < 2 ^ clExt s) :
    WellFormed i ∧ clSymbol i = some (s, x) := by
  unfold clInstr at h
  split at h
  case h_4 =>
    split at h <;> cases h
    next hs =>
      have hext : clExt s = 0 := by
        unfold clExt
        split <;> omega
      rw [hext] at hx
      exact ⟨rfl, symbol_of_value hs hx⟩
  all_goals
    cases h
    exact ⟨rfl, symbol_of_extra _ hx⟩

/-- A length symbol and its extra field are those of the element they give (R92). -/
theorem llSymbol_of_lenInstr {s x : Nat} {i : Instr} (h : lenInstr s x = some i) (hx : x < 2 ^ llExt s) :
    WellFormed i ∧ llSymbol i = some (s, x) := by
  unfold lenInstr at h
  split at h <;> cases h
  case h_1 | h_2 | h_3 | h_4 | h_5 | h_6 | h_7 | h_8 => exact ⟨rfl, symbol_of_no_extra _ hx⟩
  all_goals exact ⟨rfl, symbol_of_extra _ hx⟩

/-- An LL symbol and its extra field are those of the element they give (R86). -/
theorem llSymbol_of_llInstr {s x : Nat} {i : Instr} (h : llInstr s x = some i) (hx : x < 2 ^ llExt s) :
    WellFormed i ∧ llSymbol i = some (s, x) := by
  unfold llInstr at h
  split at h
  · next hs =>
    cases h
    have hext : llExt s = 0 := if_pos (hs.trans (by decide))
    rw [hext] at hx
    exact ⟨rfl, symbol_of_value hs hx⟩
  · split at h
    · next hs => subst hs; cases h; exact ⟨rfl, symbol_of_no_extra _ hx⟩
    · split at h
      · next hs => subst hs; cases h; exact ⟨rfl, symbol_of_no_extra _ hx⟩
      · split at h
        · next hs => subst hs; cases h; exact ⟨rfl, symbol_of_no_extra _ hx⟩
        · exact llSymbol_of_lenInstr h hx

/-- A D symbol and its extra field are those of the element they give (R93). -/
theorem dSymbol_of_distInstr {t x : Nat} {i : Instr} (h : distInstr t x = some i) (hx : x < 2 ^ dext t) :
    WellFormed i ∧ dSymbol i = some (t, x) := by
  unfold distInstr at h
  split at h <;> cases h
  case h_1 | h_2 | h_3 | h_4 => exact ⟨rfl, symbol_of_no_extra _ hx⟩
  all_goals exact ⟨rfl, symbol_of_extra _ hx⟩

/-! ### Elements -/

/-- A coded element found is encoded as its codeword and its extra field (R88). -/
theorem encodeCoded_of_decodeCoded {T : Code} {ext : Nat → Nat} {elem : Nat → Nat → Option Instr}
    {symbol : Instr → Option (Nat × Nat)} {i : Instr} {r r' : Reader} (hT : T.wf = true)
    (hsym : ∀ s x, elem s x = some i → x < 2 ^ ext s → WellFormed i ∧ symbol i = some (s, x))
    (h : decodeCoded T ext elem r = .found i r') :
    WellFormed i ∧ ∃ bs, encodeCoded T ext (symbol i) = some bs ∧ Reader.Reads bs r r' := by
  unfold decodeCoded at h
  split at h
  · cases h
  · cases h
  · next s r₁ hdec =>
    split at h
    · cases h
    · next x r₂ hread =>
      split at h
      · next helem =>
        cases h
        obtain ⟨w, hw, rfl, hreads⟩ := decodeSym_sym hdec
        obtain ⟨hx, hreads₁⟩ := Reader.reads_of_readBits hread
        obtain ⟨hwf, hs⟩ := hsym _ _ helem hx
        refine ⟨hwf, _, ?_, hreads.trans hreads₁⟩
        simp [encodeCoded, hs, Code.codeword_of_mem (Code.symbolsAscend_of_wf hT) hw]
      · cases h

/-- A header is encoded as its BFINAL and BTYPE (R76, R77). -/
theorem encode_headerInstr {f t : Nat} (hf : f < 2) (ht : t < 4) :
    WellFormed (headerInstr (f == 1) t) ∧
      encode .blockHeader (headerInstr (f == 1) t) = some (fieldBits 1 f ++ fieldBits 2 t) := by
  have hbfinal : (f == 1).toNat = f := by interval_cases f <;> rfl
  interval_cases t <;> exact ⟨rfl, by simp only [headerInstr, encode, hbfinal]⟩

/-- Settles O10, over the formats: what is read is each field of an uncoded element, or codeword and extra field of a
coded one (`encodeCoded_of_decodeCoded`), whose symbol is the element's own. -/
theorem decodedBitsSpellTheElement : Obligations.DecodedBitsSpellTheElement := by
  intro e i r r' hT h
  cases e with
  | blockHeader =>
    obtain ⟨f, hf, hbind⟩ := Option.bind_eq_some_iff.mp (Decoded.ofRead_found.mp h)
    obtain ⟨t, ht, he⟩ := Option.map_eq_some_iff.mp hbind
    cases he
    obtain ⟨hlt₁, hreads₁⟩ := Reader.reads_of_readBits hf
    obtain ⟨hlt₂, hreads₂⟩ := Reader.reads_of_readBits ht
    obtain ⟨hwf, henc⟩ := encode_headerInstr hlt₁ hlt₂
    exact ⟨hwf, _, henc, hreads₁.trans hreads₂⟩
  | storedHdr =>
    obtain ⟨l, hl, hbind⟩ := Option.bind_eq_some_iff.mp (Decoded.ofRead_found.mp h)
    obtain ⟨n, hn, he⟩ := Option.map_eq_some_iff.mp hbind
    cases he
    exact ⟨rfl, _, rfl, (Reader.reads_operand hl).trans (Reader.reads_operand hn)⟩
  | storedByte =>
    obtain ⟨b, hb, he⟩ := Option.map_eq_some_iff.mp (Decoded.ofRead_found.mp h)
    cases he
    exact ⟨rfl, _, rfl, Reader.reads_operand hb⟩
  | storedEnd =>
    cases h
    exact ⟨rfl, _, rfl, r.reads_nil⟩
  | dynCounts =>
    obtain ⟨a, ha, hbind⟩ := Option.bind_eq_some_iff.mp (Decoded.ofRead_found.mp h)
    obtain ⟨b, hb, hbind⟩ := Option.bind_eq_some_iff.mp hbind
    obtain ⟨c, hc, he⟩ := Option.map_eq_some_iff.mp hbind
    cases he
    exact ⟨rfl, _, rfl, ((Reader.reads_operand ha).trans (Reader.reads_operand hb)).trans (Reader.reads_operand hc)⟩
  | clLen =>
    obtain ⟨l, hl, he⟩ := Option.map_eq_some_iff.mp (Decoded.ofRead_found.mp h)
    cases he
    exact ⟨rfl, _, rfl, Reader.reads_operand hl⟩
  | clSym T => exact encodeCoded_of_decodeCoded hT (fun _ _ => clSymbol_of_clInstr) h
  | llSym T => exact encodeCoded_of_decodeCoded hT (fun _ _ => llSymbol_of_llInstr) h
  | dSym T => exact encodeCoded_of_decodeCoded hT (fun _ _ => dSymbol_of_distInstr) h

end Sys2Proof
end

section
/-! DECODE run as an instruction (41_huffman.md R132, R133), and a step that meets bits of no codeword (60_exceptions.md
R227). -/

namespace Sys2Proof

/-- DECODE of the empty code reads nothing (R133). -/
theorem decodeSym_nil (r : Reader) : decodeSym [] r = .invalid r := by
  simp [decodeSym, decodeSymFrom, Code.symbol, Code.continues]

/-- DECODE of the one codeword 0 of one bit answers after that bit (R133). -/
theorem decodeSym_single {v : Nat} {b : Bool} {r r' : Reader} (h : r.readBits 1 = some (b.toNat, r')) :
    decodeSym [⟨0, 1, v⟩] r = if b then .invalid r' else .sym v r' := by
  cases b <;> simp [decodeSym, decodeSymFrom, Config.maxCodeLen, Code.symbol, Code.continues, h]

end Sys2Proof

namespace Sys2Proof.Machine

theorem exec_decode_of_sym {T : Code} {s : State} {v : Nat} {r : Reader} (h : decodeSym T s.rd = .sym v r) :
    exec (.decode T) s = .next { s with rd := r, opRes := .symbol v } := by
  have hexec : exec (.decode T) s = execDecode T s := rfl
  rw [hexec, execDecode, h]

theorem exec_decode_of_invalid {T : Code} {s : State} {r : Reader} (h : decodeSym T s.rd = .invalid r) :
    ∃ t, exec (.decode T) s = .next t ∧ t.opRes = .raised .invalidCode ∧
      RaiseEffect .invalidCode { s with rd := r } { t with opRes := s.opRes } := by
  have hexec : exec (.decode T) s = execDecode T s := rfl
  rw [hexec, execDecode, h]
  exact ⟨_, rfl, rfl, State.raise_effect_opRes .invalidCode { s with rd := r } (.raised .invalidCode)⟩

/-- Settles O23: the codeword that stands next decodes to its symbol (`decodeSym_of_bits`). -/
theorem decodeReadsCodeword : Obligations.DecodeReadsCodeword := by
  intro T w rest s hT hw hbits
  obtain ⟨r, hdec, hleft⟩ := decodeSym_of_bits hT hw hbits
  exact ⟨r, exec_decode_of_sym hdec, hleft⟩

/-- Settles O24, by the two incomplete codes' decoding (`decodeSym_nil`, `decodeSym_single`). -/
theorem decodeOfIncompleteCodes : Obligations.DecodeOfIncompleteCodes := by
  intro s v
  refine ⟨exec_decode_of_invalid (decodeSym_nil s.rd), fun b rest hbits => ?_⟩
  have hfield : s.rd.bits = fieldBits 1 b.toNat ++ rest := by rw [hbits]; cases b <;> rfl
  obtain ⟨r, hread, hrest, hpos⟩ := Reader.readBits_of_bits (Bool.toNat_lt b) hfield
  have hdec := decodeSym_single (v := v) hread
  refine ⟨r, hrest, hpos, ?zero, ?one⟩
  case zero =>
    rintro rfl
    exact exec_decode_of_sym hdec
  case one =>
    rintro rfl
    exact exec_decode_of_invalid hdec

/-- A raise in a unit that begins has the effect it has between two units: the rollback point recorded does not outlive
it. -/
theorem State.raise_effect_enterUnit (c : Cause) (s : State) (r : Reader) :
    RaiseEffect c { s with rd := r } (State.raise c { s.enterUnit with rd := r }) := by
  unfold State.enterUnit
  split
  · exact State.raise_effect c { s with snap := some s.capture, rd := r }
  · exact State.raise_effect c { s with rd := r }

/-- Settles O50: the step is the raise, in the unit the element begins or stands in. -/
theorem invalidCodewordRaises : Obligations.InvalidCodewordRaises := by
  intro s e r hcall hexpect hdec
  refine ⟨_, ?_, State.raise_effect_enterUnit .invalidCode s r⟩
  simp [step, fetch_running hcall, hexpect, fetchElem, hdec]

end Sys2Proof.Machine
end

section
/-! The window operations run as instructions of their own (42_window.md §1, §2): APPEND and COPY_MATCH. -/

namespace Sys2Proof.Machine

/-- Settles O25: APPEND's meaning is the append, whose effect is `State.append_effect`. -/
theorem appendWritesWindowAndOutput : Obligations.AppendWritesWindowAndOutput :=
  fun b s => ⟨s.append b, rfl, State.append_effect b s, rfl⟩

/-- Settles O26: too great a distance raises; otherwise the window has every byte the copy reads (`exists_copyBytes`), and
`copyBytes_effect` says which they are. -/
theorem copyMatchCopiesOrRaises : Obligations.CopyMatchCopiesOrRaises := by
  intro d l s
  refine ⟨fun hlt => ?raises, fun hw hpos hmax hle => ?copies⟩
  case raises => exact ⟨_, copyMatchThen_of_tooFar hlt, State.raise_effect .distTooFar s⟩
  case copies =>
    obtain ⟨t, ht⟩ := exists_copyBytes l hw hpos hle
    exact ⟨t, copyMatchThen_of_copied hle ht, copyBytes_effect hpos hmax ht, copyBytes_frame ht⟩

end Sys2Proof.Machine
end

section
/-! The history of the output (42_window.md R140, R146; 44_fsm_host.md R199): a step other than RESET either adds bytes at
its end, in the window, the counter and the output alike, or fails the session. -/

namespace Sys2Proof.Machine

/-! ### Output that goes on -/

/-- The counter and the window agree with the bytes emitted: `HistoryOk` of a session that has not failed. -/
def OutputAgrees (s : State) : Prop :=
  s.emitted.length = s.total ∧
    ∀ k, 1 ≤ k → k ≤ min s.total Config.windowSize → s.recent k = s.emitted[s.total - k]?

theorem historyOk_iff (s : State) : HistoryOk s ↔ (s.fsm ≠ .failed → OutputAgrees s) := Iff.rfl

/-- The output of `s` goes on in `t`: what calls returned and what was emitted stay in place (20_memory.md R56), and the
counter and the window agree with it in `t` if they do in `s`. -/
structure OutputGoesOn (s t : State) : Prop where
  returned : outputStream s.results <+: outputStream t.results
  emitted : s.emitted <+: t.emitted
  agrees : OutputAgrees s → OutputAgrees t

theorem OutputGoesOn.trans {s t u : State} (h : OutputGoesOn s t) (h' : OutputGoesOn t u) : OutputGoesOn s u :=
  ⟨h.returned.trans h'.returned, h.emitted.trans h'.emitted, h'.agrees ∘ h.agrees⟩

/-- With the window, the counter and the bytes emitted as they were, only what was returned can have grown. -/
theorem OutputGoesOn.of_emitted_eq {s t : State} (hwin : t.win = s.win) (hwpos : t.wpos = s.wpos)
    (htotal : t.total = s.total) (hemitted : t.emitted = s.emitted)
    (hreturned : outputStream s.results <+: outputStream t.results) : OutputGoesOn s t where
  returned := hreturned
  emitted := hemitted ▸ List.prefix_rfl
  agrees h := by simpa only [OutputAgrees, State.recent, hwin, hwpos, htotal, hemitted] using h

/-- Nothing is produced, emitted or returned. -/
theorem OutputGoesOn.of_same {s t : State} (hwin : t.win = s.win) (hwpos : t.wpos = s.wpos)
    (htotal : t.total = s.total) (hout : t.out = s.out) (hresults : t.results = s.results) : OutputGoesOn s t :=
  .of_emitted_eq hwin hwpos htotal (by rw [State.emitted, hout, hresults, State.emitted])
    (hresults ▸ List.prefix_rfl)

@[simp] theorem State.append_emitted (b : Byte) (s : State) : (s.append b).emitted = s.emitted ++ [b] := by
  simp [State.emitted]

/-- APPEND puts its byte at the end of the bytes emitted and of those the window holds (42_window.md R140, R146). -/
theorem OutputAgrees.append {s : State} (h : OutputAgrees s) (b : Byte) : OutputAgrees (s.append b) := by
  obtain ⟨hlen, hrecent⟩ := h
  refine ⟨by simp [hlen], fun k hpos hk => ?_⟩
  rw [State.append_total, le_min_iff] at hk
  obtain ⟨htotal, hwindow⟩ := hk
  rw [State.append_total, State.append_emitted]
  rcases hpos.eq_or_lt with rfl | h1
  · rw [State.recent_append_one, Nat.add_sub_cancel, ← hlen, List.getElem?_concat_length]
  · obtain ⟨j, rfl⟩ := Nat.exists_eq_add_of_lt h1
    rw [State.recent_append_succ b s (by omega) hwindow, Nat.add_sub_add_right, List.getElem?_append_left (by omega)]
    exact hrecent _ (by omega) (le_min_iff.mpr ⟨by omega, by omega⟩)

theorem outputGoesOn_append (b : Byte) (s : State) : OutputGoesOn s (s.append b) where
  returned := List.prefix_rfl
  emitted := State.append_emitted b s ▸ List.prefix_append ..
  agrees h := h.append b

/-- A copy is appends, one byte after the other (42_window.md R141). -/
theorem outputGoesOn_copyBytes {d l : Nat} {s t : State} (h : copyBytes d l s = some t) : OutputGoesOn s t := by
  induction l generalizing s with
  | zero => cases h; exact .of_same rfl rfl rfl rfl rfl
  | succ l ih =>
    obtain ⟨b, -, hb⟩ := Option.bind_eq_some_iff.mp h
    exact (outputGoesOn_append b s).trans (ih hb)

theorem outputGoesOn_commit (s : State) : OutputGoesOn s s.commit := .of_same rfl rfl rfl rfl rfl

/-- A call that ends with Ok returns the bytes it emitted (44_fsm_host.md R196). -/
theorem outputGoesOn_endCall {s : State} (hp : s.phase ≠ .idle) : OutputGoesOn s (s.endCall (.ok s.out)) := by
  have hreturned : outputStream (s.endCall (.ok s.out)).results = outputStream s.results ++ s.out := by
    simp [hp, outputStream]
  refine .of_emitted_eq (by simp) (by simp) (by simp) ?_ (hreturned ▸ List.prefix_append ..)
  rw [State.emitted, hreturned, State.endCall_out, List.append_nil, State.emitted]

/-- A suspension returns every byte the call emitted: the unit that is abandoned has emitted none (44_fsm_host.md R192,
R199). -/
theorem Running.outputGoesOn_suspend {s : State} (h : Running s) : OutputGoesOn s s.suspend := by
  obtain ⟨rd, f, -, -, hsnap⟩ := h.point
  have hroll : s.rollback = { s with rd := rd, bfinal := f } := by simp [State.rollback, hsnap, State.capture]
  rw [State.suspend, if_neg h.call, hroll]
  exact .trans (t := { s with rd := rd, bfinal := f }) (.of_same rfl rfl rfl rfl rfl) (outputGoesOn_endCall h.call)

/-! ### What a step does to the output -/

/-- What a step other than RESET does to the output. -/
inductive OutputStep (s t : State) : Prop
  /-- The output goes on; a failed session stays failed (60_exceptions.md R230). -/
  | goesOn (hlive : t.fsm ≠ .failed → s.fsm ≠ .failed) (h : OutputGoesOn s t)
  /-- The session fails: the output of the current call is discarded, what was returned stays (R225). -/
  | fails (hfailed : t.fsm = .failed) (hreturned : outputStream t.results = outputStream s.results)

theorem OutputStep.historyOk {s t : State} (h : OutputStep s t) (hs : HistoryOk s) : HistoryOk t := by
  rw [historyOk_iff] at hs ⊢
  cases h with
  | goesOn hlive h => exact fun ht => h.agrees (hs (hlive ht))
  | fails hfailed _ => exact fun ht => absurd hfailed ht

theorem OutputStep.kept {s t : State} (h : OutputStep s t) :
    outputStream s.results <+: outputStream t.results ∧ (t.fsm ≠ .failed → s.emitted <+: t.emitted) := by
  cases h with
  | goesOn _ h => exact ⟨h.returned, fun _ => h.emitted⟩
  | fails hfailed hreturned => exact ⟨hreturned ▸ List.prefix_rfl, fun ht => absurd hfailed ht⟩

/-- What follows a change that leaves the output and the control state alone. -/
theorem OutputStep.after_same {s u t : State} (h : OutputStep u t) (hfsm : u.fsm = s.fsm) (hwin : u.win = s.win)
    (hwpos : u.wpos = s.wpos) (htotal : u.total = s.total) (hout : u.out = s.out) (hresults : u.results = s.results) :
    OutputStep s t := by
  cases h with
  | goesOn hlive h =>
    exact .goesOn (fun ht => hfsm ▸ hlive ht) ((OutputGoesOn.of_same hwin hwpos htotal hout hresults).trans h)
  | fails hfailed hreturned => exact .fails hfailed (hresults ▸ hreturned)

/-- What follows a unit's entry and the bits its element takes. -/
theorem OutputStep.after_enterUnit {s t : State} {r : Reader} (h : OutputStep { s.enterUnit with rd := r } t) :
    OutputStep s t :=
  h.after_same s.enterUnit_fsm s.enterUnit_win s.enterUnit_wpos s.enterUnit_total s.enterUnit_out s.enterUnit_results

/-- The Err a raise hands over carries no byte (R225, R209). -/
theorem outputStep_raise (c : Cause) (s : State) : OutputStep s (s.raise c) := by
  refine .fails (State.raise_fsm c s) ?_
  by_cases hp : s.phase = .idle <;> simp [hp, outputStream]

/-- The end of a call on an ended session (44_fsm_host.md R196, R203). -/
theorem outputStep_finish {s : State} (bytes : List Byte) (hp : s.phase ≠ .idle) (hf : s.fsm ≠ .failed) :
    OutputStep s (s.finish bytes) := by
  obtain ⟨-, he⟩ | ⟨-, -, he⟩ := s.finish_cases bytes <;> rw [he]
  · exact .goesOn (fun _ => hf) (outputGoesOn_endCall hp)
  · exact outputStep_raise .trailingData s

/-- An element appends bytes, raises, or leaves the output alone (43_block_decoder.md). -/
theorem ElemStep.outputStep {u t : State} {e : Expect} (h : ElemStep u e t) (hu : u.fsm ≠ .failed) :
    OutputStep u t := by
  cases h with
  | storedByte b => exact .goesOn (fun _ => hu) ((outputGoesOn_append b u).trans (.of_same rfl rfl rfl rfl rfl))
  | literal T b => exact .goesOn (fun _ => hu) ((outputGoesOn_append b u).trans (outputGoesOn_commit _))
  | copy T d v h => exact .goesOn (fun _ => hu) ((outputGoesOn_copyBytes h).trans (outputGoesOn_commit v))
  | reservedBlock | storedMismatch | countsRefused | clLenRefused | clSymRefused | invalidSym | tooFar =>
    exact (outputStep_raise _ _).after_same rfl rfl rfl rfl rfl rfl
  | storedBlock | fixedBlock | dynamicBlock | storedBegins | storedEnds | counts | clLen | clLenLast | clSym
    | clSymLast | blockEnds | length =>
    exact .goesOn (fun _ => hu) (.of_same rfl rfl rfl rfl rfl)

/-- EOF and DECOMPRESS, when they begin in a legal state between calls, in which no output is held (10_state.md R33). -/
theorem Inv.outputStep_call {s t : State} {c : HostCall} {cs : List HostCall} (h : Inv s) (hp : s.phase = .idle)
    (hc : c ≠ .reset) (hx : exec c.instr { s with calls := cs } = .next t) : OutputStep s t := by
  cases c with
  | reset => exact absurd rfl hc
  | eof =>
    cases hx
    have hreturned : outputStream (s.results ++ [.eof s.eof]) = outputStream s.results := by simp [outputStream]
    exact .goesOn id (.of_emitted_eq rfl rfl rfl (congrArg (· ++ s.out) hreturned) (hreturned ▸ List.prefix_rfl))
  | decompress chunk =>
    refine OutputStep.after_same (u := State.beginCall { s with calls := cs }) ?_ rfl rfl rfl rfl
      (h.idleClean hp).symm rfl
    obtain ⟨-, -, rfl⟩ | ⟨-, hf, rfl⟩ | ⟨-, -, rfl⟩ := execDecompress_cases hx
    · exact outputStep_raise .sessionFailed _
    · exact outputStep_finish chunk nofun (by rw [State.beginCall_fsm, hf]; nofun)
    · exact .goesOn id (.of_same rfl rfl rfl rfl rfl)

/-- A step that does not run RESET, from a legal state, over the ways it answers a next state (`step_cases`). -/
theorem Inv.outputStep {s t : State} (h : Inv s) (hr : ¬s.resetNext) (hstep : step s = .next t) : OutputStep s t := by
  obtain ⟨-, -, rfl⟩ | ⟨c, cs, hp, hc, hx⟩ | ⟨e, i, r, hp, -, hd, hx⟩ | ⟨e, hp, he, -, rfl⟩ | ⟨e, r, -, -, -, rfl⟩ |
    ⟨hp, -, hf, rfl⟩ | ⟨-, -, -, rfl⟩ := step_cases hstep
  · exact .goesOn id (.of_same rfl rfl rfl rfl rfl)
  · refine h.outputStep_call hp ?_ hx
    rintro rfl
    exact hr ⟨hp, by rw [hc]; rfl⟩
  · exact ((elemStep_of_found hd hx).outputStep (by simpa using h.callLive hp)).after_enterUnit
  · have hrun := h.running_enterUnit he
    exact (OutputStep.goesOn (fun _ => hrun.ne_failed) hrun.outputGoesOn_suspend).after_enterUnit
  · exact (outputStep_raise .invalidCode _).after_enterUnit
  · exact (outputStep_finish (s := { s with rd := { s.rd with inq := [], bitoff := 0 } }) _ hp
      (by simp [hf])).after_same rfl rfl rfl rfl rfl rfl
  · exact outputStep_raise .sessionFailed s

/-! ### RESET -/

/-- The step that runs RESET (10_state.md R42). -/
theorem step_of_resetNext {s : State} (h : s.resetNext) :
    step s = .next { State.reset with cfg := s.cfg, calls := s.calls.tail } := by
  obtain ⟨hp, hc⟩ := h
  obtain ⟨cs, hcs⟩ := List.head?_eq_some_iff.mp hc
  rw [step_idle_cons hp hcs, hcs]
  rfl

/-- A session that begins has an empty history, whatever the parameters and the waiting transactions. -/
theorem historyOk_reset_with (cfg : Params) (calls : List HostCall) :
    HistoryOk { State.reset with cfg := cfg, calls := calls } := historyOk_reset

/-- Settles O4: a step that runs RESET begins an empty history, and every other one is an `OutputStep`. -/
theorem outputHistoryKept : Obligations.OutputHistoryKept := by
  intro s t h hs hstep
  by_cases hr : s.resetNext
  · rw [step_of_resetNext hr] at hstep
    cases hstep
    exact ⟨historyOk_reset_with _ _, fun hn => absurd hr hn⟩
  · have hout := h.outputStep hr hstep
    exact ⟨hout.historyOk hs, fun _ => hout.kept⟩

end Sys2Proof.Machine
end

section
/-! The elements of a block outside a dynamic header, one by one: the block headers (43_block_decoder.md R150 to R156,
R166), the stored block (R152 to R154), and the body's literals, end and invalid symbols (R168, R169, R173). -/

namespace Sys2Proof.Machine

/-! ### Block headers -/

/-- Settles O27: the three meanings, with ALIGN_TO_BYTE and the fixed lengths written out (R117, R89, R91). -/
theorem blockHeadersBegin : Obligations.BlockHeadersBegin :=
  fun _ _ => ⟨rfl, rfl, rfl⟩

/-- A step in a call whose next element is decoded runs it in its unit, its bits taken (44_fsm_host.md R192, R194). -/
theorem step_of_found {s : State} {e : Expect} {i : Instr} {r : Reader} (hcall : s.phase ≠ .idle)
    (hexpect : s.expect = some e) (hdec : decode e s.rd = .found i r) :
    step s = exec i { s.enterUnit with rd := r } := by
  simp [step, fetch_running hcall, hexpect, fetchElem, hdec]

/-- In HDR between two units a block header is next (R100). -/
theorem State.expect_of_hdr {s : State} (hp : s.phase = .between) (hf : s.fsm = .hdr) :
    s.expect = some .blockHeader := by
  simp [State.expect, hp, hf]

/-- The bits of a header of type 3 are BFINAL and two ones (30_encoding.md R76, R77). -/
theorem reservedHeader_bits (f : Bool) (rest : List Bool) :
    f :: true :: true :: rest = fieldBits 1 f.toNat ++ fieldBits 2 3 ++ rest := by
  cases f <;> rfl

/-- Settles O28: the header is decoded from its three bits (`decodeHeader_of_bits`), and its meaning is the raise. -/
theorem reservedBlockRaises : Obligations.ReservedBlockRaises := by
  refine ⟨fun f s => ⟨_, rfl, State.raise_effect .reservedBtype { s with bfinal := f }⟩, ?_⟩
  intro f rest s hp hf hbits
  obtain ⟨r, hdec, hrest, hpos⟩ := decodeHeader_of_bits (by decide) (hbits.trans (reservedHeader_bits f rest))
  have hstep : step s = exec (.blkReserved f) { s.enterUnit with rd := r } :=
    step_of_found (by rw [hp]; nofun) (State.expect_of_hdr hp hf) hdec
  have henter : s.enterUnit = { s with snap := some s.capture } := if_pos hp
  rw [henter] at hstep
  exact ⟨r, _, hrest, hpos, hstep,
    State.raise_effect .reservedBtype { s with snap := some s.capture, rd := r, bfinal := f }⟩

/-! ### Stored blocks -/

/-- The complement check compares NLEN with LEN xor 0xFFFF (R152). -/
theorem storedLenMatches_iff {len nlen : BitVec 16} :
    storedLenMatches len nlen = true ↔ nlen = len ^^^ 0xFFFF#16 := beq_iff_eq

/-- Settles O29: the complement check decides between the stored body and the raise. -/
theorem storedHeaderIsChecked : Obligations.StoredHeaderIsChecked := by
  intro len nlen s
  refine ⟨fun hmatch => ?body, fun hmismatch => ?raises⟩
  case body => exact if_pos (storedLenMatches_iff.mpr hmatch)
  case raises =>
    exact ⟨_, if_neg (mt storedLenMatches_iff.mp hmismatch), State.raise_effect .storedNlen s⟩

theorem AppendEffect.commit {b : Byte} {s t : State} (h : AppendEffect b s t) : AppendEffect b s t.commit := h

/-- Settles O30: the append's effect (`State.append_effect`) is not touched by `rem` and the commit. -/
theorem storedByteIsCopied : Obligations.StoredByteIsCopied := by
  intro b s
  have heffect : AppendEffect b s { s.append b with rem := s.rem - 1 } := State.append_effect b s
  exact ⟨_, rfl, heffect.commit, rfl⟩

/-! ### The end of a block -/

/-- At the end of a block `eof` becomes true exactly after the final block (10_state.md R35). -/
theorem State.blockEnd_eof (s : State) : s.blockEnd.eof = s.bfinal := by
  cases hb : s.bfinal <;> simp [State.eof, hb]

/-- Settles O31: both elements end the block and commit. -/
theorem blocksEnd : Obligations.BlocksEnd := by
  intro i s hi
  have hexec : exec i s = .next s.blockEnd.commit := by rcases hi with rfl | rfl <;> rfl
  exact ⟨_, hexec, s.blockEnd_eof, rfl⟩

/-! ### Symbols of a body that stand alone -/

/-- Settles O32: the append's effect (`State.append_effect`) is not touched by the commit. -/
theorem literalIsAppended : Obligations.LiteralIsAppended :=
  fun b s => ⟨_, rfl, (State.append_effect b s).commit, rfl⟩

/-- Settles O34: both symbols have the raise as their meaning. -/
theorem invalidSymbolsRaise : Obligations.InvalidSymbolsRaise := by
  intro i s hi
  have hexec : exec i s = .next (s.raise .invalidLitlenSym) := by rcases hi with rfl | rfl <;> rfl
  exact ⟨_, hexec, State.raise_effect .invalidLitlenSym s⟩

end Sys2Proof.Machine
end

section
/-! The dynamic header element by element (43_block_decoder.md §4): the counts, the CL lengths, and the CL symbols that
extend the sequence of lengths, pass its end, or complete it. -/

namespace Sys2Proof.Machine

/-! ### The counts -/

/-- The check of R157 refuses HLIT 30 and 31. -/
theorem maxNlen_lt_nlenOf_iff {hlit : BitVec 5} : Config.maxNlen < nlenOf hlit ↔ 30 ≤ hlit.toNat := by
  rw [nlenOf, Config.maxNlen]
  omega

/-- Settles O37: the check of R157 decides between the counts and the raise. -/
theorem dynamicCounts : Obligations.DynamicCounts := by
  intro hlit hdist hclen s
  refine ⟨fun hle => ?counts, fun hgt => ?raises⟩
  case counts => exact if_neg (mt maxNlen_lt_nlenOf_iff.mp (by omega))
  case raises => exact ⟨_, if_pos (maxNlen_lt_nlenOf_iff.mpr hgt), State.raise_effect .hlitRange s⟩

/-! ### The CL lengths -/

/-- No incomplete CL code is accepted (R158, 41_huffman.md R128). -/
theorem tableAccepted_cl {strict : Bool} {lens : List CodeLen} :
    TableAccepted strict .cl lens ↔ kraftSum lens = 2 ^ 15 := by
  simp [TableAccepted]

/-- A CL length before the last one. -/
theorem exec_clLen_of_more {l : BitVec 3} {s : State} (h : s.hdr.nread + 1 < s.hdr.ncode) :
    exec (.clLen l) s = .next { s with hdr := s.hdr.putClLen l, phase := .clLens } :=
  if_pos h

/-- The last CL length, of a complete CL code. -/
theorem exec_clLen_of_complete {l : BitVec 3} {s : State} (h : s.hdr.nread + 1 = s.hdr.ncode)
    (hsum : kraftSum (s.hdr.putClLen l).clLen = 2 ^ 15) :
    exec (.clLen l) s = .next { s with hdr := s.hdr.putClLen l, phase := .clSyms } :=
  (if_neg h.not_lt).trans (if_pos (buildAccepts_iff.mpr (tableAccepted_cl.mpr hsum)))

/-- The last CL length, of no complete CL code. -/
theorem exec_clLen_of_incomplete {l : BitVec 3} {s : State} (h : s.hdr.nread + 1 = s.hdr.ncode)
    (hsum : kraftSum (s.hdr.putClLen l).clLen ≠ 2 ^ 15) :
    exec (.clLen l) s = .next (State.raise .clTree { s with hdr := s.hdr.putClLen l }) :=
  (if_neg h.not_lt).trans (if_neg fun hacc => hsum (tableAccepted_cl.mp (buildAccepts_iff.mp hacc)))

/-- Settles O38: the header with the length in its place is `DynHeader.putClLen`, and CL_LEN ends in one of three ways. -/
theorem codeLengthCodeIsBuilt : Obligations.CodeLengthCodeIsBuilt := by
  rintro l s _ - - - rfl
  exact ⟨exec_clLen_of_more, exec_clLen_of_complete,
    fun hlast hsum => ⟨_, exec_clLen_of_incomplete hlast hsum, State.raise_effect .clTree _⟩⟩

/-! ### The CL symbols -/

/-- CL_REP16 after a length is a run of it (R161). -/
theorem exec_clRep16_of_previous {s : State} {ls : List CodeLen} {v : CodeLen} (e : BitVec 2)
    (h : s.hdr.lens = ls ++ [v]) : exec (.clRep16 e) s = .next (s.pushRun (3 + e.toNat) v) := by
  have hexec : exec (.clRep16 e) s = execClRep16 e s := rfl
  rw [hexec, execClRep16, h, List.getLast?_concat]
  rfl

/-- CL_REP16 before any length (R161). -/
theorem exec_clRep16_of_first {s : State} (e : BitVec 2) (h : s.hdr.lens = []) :
    exec (.clRep16 e) s = .next (s.raise .clRepeatNoPrev) := by
  have hexec : exec (.clRep16 e) s = execClRep16 e s := rfl
  rw [hexec, execClRep16, h]
  rfl

theorem exec_clSet (v : CodeLen) (s : State) : exec (.clSet v) s = .next (s.pushLens [v]) := rfl

theorem exec_clZero17 (e : BitVec 3) (s : State) : exec (.clZero17 e) s = .next (s.pushRun (3 + e.toNat) 0) := rfl

theorem exec_clZero18 (e : BitVec 7) (s : State) : exec (.clZero18 e) s = .next (s.pushRun (11 + e.toNat) 0) := rfl

/-- Lengths after which some are still missing (R159). -/
theorem State.pushLens_of_short {s : State} {vs : List CodeLen}
    (h : s.hdr.lens.length + vs.length < s.hdr.nlen + s.hdr.ndist) :
    s.pushLens vs = { s with hdr := s.hdr.append vs, phase := .clSyms } :=
  if_pos (List.length_append.trans_lt h)

/-- Lengths that complete the sequence (R165). -/
theorem State.pushLens_of_complete {s : State} {vs : List CodeLen}
    (h : s.hdr.lens.length + vs.length = s.hdr.nlen + s.hdr.ndist) :
    s.pushLens vs = State.dynFinish { s with hdr := s.hdr.append vs } :=
  if_neg (List.length_append.trans h).not_lt

/-- A run that passes the end of the sequence (R164). -/
theorem State.pushRun_of_overrun {s : State} {r : Nat} (v : CodeLen)
    (h : s.hdr.nlen + s.hdr.ndist < s.hdr.lens.length + r) : s.pushRun r v = s.raise .clOverrun :=
  if_pos h

/-- A run that stays within the sequence (R164). -/
theorem State.pushRun_of_fits {s : State} {r : Nat} (v : CodeLen)
    (h : s.hdr.lens.length + r ≤ s.hdr.nlen + s.hdr.ndist) : s.pushRun r v = s.pushLens (List.replicate r v) :=
  if_neg h.not_gt

/-- A run after which some lengths are still missing. -/
theorem State.pushRun_of_short {s : State} {r : Nat} (v : CodeLen)
    (h : s.hdr.lens.length + r < s.hdr.nlen + s.hdr.ndist) :
    s.pushRun r v = { s with hdr := s.hdr.append (List.replicate r v), phase := .clSyms } := by
  rw [State.pushRun_of_fits v h.le, State.pushLens_of_short (by rwa [List.length_replicate])]

/-- Settles O39: each symbol appends one length or a run, after which some are still missing. -/
theorem codeLengthSymbolsExtend : Obligations.CodeLengthSymbolsExtend := by
  rintro s _ rfl
  refine ⟨fun v h => ?set, fun e v ls hprev h => ?rep16, fun e h => ?zero17, fun e h => ?zero18⟩
  case set => exact congrArg _ (State.pushLens_of_short h)
  case rep16 => exact (exec_clRep16_of_previous e hprev).trans (congrArg _ (State.pushRun_of_short v h))
  case zero17 | zero18 => exact congrArg _ (State.pushRun_of_short 0 h)

/-- Settles O40: CL_REP16 looks for the previous length first, and a run is checked before any of it is kept. -/
theorem codeLengthRunsAreChecked : Obligations.CodeLengthRunsAreChecked := by
  rintro s _ rfl
  refine ⟨fun e h => ?noPrevious, fun e hne h => ?rep16, fun e h => ?zero17, fun e h => ?zero18⟩
  case noPrevious => exact ⟨_, exec_clRep16_of_first e h, State.raise_effect .clRepeatNoPrev s⟩
  case rep16 =>
    obtain ⟨ls, v, hprev⟩ := (List.eq_nil_or_concat' s.hdr.lens).resolve_left hne
    exact ⟨_, exec_clRep16_of_previous e hprev, State.pushRun_of_overrun v h ▸ State.raise_effect .clOverrun s⟩
  case zero17 => exact ⟨_, exec_clZero17 e s, State.pushRun_of_overrun 0 h ▸ State.raise_effect .clOverrun s⟩
  case zero18 => exact ⟨_, exec_clZero18 e s, State.pushRun_of_overrun 0 h ▸ State.raise_effect .clOverrun s⟩

/-! ### The end of the sequence -/

/-- A run that completes the sequence. -/
theorem State.pushRun_of_complete {s : State} {r : Nat} (v : CodeLen)
    (h : s.hdr.lens.length + r = s.hdr.nlen + s.hdr.ndist) :
    s.pushRun r v = State.dynFinish { s with hdr := s.hdr.append (List.replicate r v) } := by
  rw [State.pushRun_of_fits v h.le, State.pushLens_of_complete (by rwa [List.length_replicate])]

/-- What DYN_FINISH does, with the tables it accepts told by their sum (R165, 60_exceptions.md R229). -/
theorem State.dynFinish_effect (s : State) :
    (s.hdr.lens.getD 256 0 = 0 → RaiseEffect .missingEob s s.dynFinish) ∧
      (s.hdr.lens.getD 256 0 ≠ 0 → ¬TableAccepted s.cfg.strict .ll s.hdr.newLL →
        RaiseEffect .litlenTree s s.dynFinish) ∧
      (s.hdr.lens.getD 256 0 ≠ 0 → TableAccepted s.cfg.strict .ll s.hdr.newLL →
        ¬TableAccepted s.cfg.strict .d s.hdr.newD → RaiseEffect .distTree s s.dynFinish) ∧
      (s.hdr.lens.getD 256 0 ≠ 0 → TableAccepted s.cfg.strict .ll s.hdr.newLL →
        TableAccepted s.cfg.strict .d s.hdr.newD → s.dynFinish =
          State.commit { s with llLen := s.hdr.newLL, distLen := s.hdr.newD, kind := .dynamic, fsm := .body }) := by
  obtain ⟨h0, he⟩ | ⟨h0, hl, he⟩ | ⟨h0, hl, hd, he⟩ | ⟨h0, hl, hd, he⟩ := s.dynFinish_cases <;> rw [he]
  · exact ⟨fun _ => State.raise_effect .missingEob s, fun h => absurd h0 h, fun h => absurd h0 h, fun h => absurd h0 h⟩
  · have hll := mt buildAccepts_iff.mpr (Bool.eq_false_iff.mp hl)
    exact ⟨fun h => absurd h h0, fun _ _ => State.raise_effect .litlenTree s, fun _ h => absurd h hll,
      fun _ h => absurd h hll⟩
  · have hll := buildAccepts_iff.mp hl
    have hdist := mt buildAccepts_iff.mpr (Bool.eq_false_iff.mp hd)
    exact ⟨fun h => absurd h h0, fun _ h => absurd hll h, fun _ _ _ => State.raise_effect .distTree s,
      fun _ _ h => absurd h hdist⟩
  · have hll := buildAccepts_iff.mp hl
    have hdist := buildAccepts_iff.mp hd
    exact ⟨fun h => absurd h h0, fun _ h => absurd hll h, fun _ _ h => absurd hdist h, fun _ _ _ => rfl⟩

/-- The D table of a sequence of exactly `nlen + ndist` lengths: what follows the first `nlen`, filled up (R165). -/
theorem DynHeader.newD_of_complete {h : DynHeader} (hlen : h.lens.length = h.nlen + h.ndist) :
    h.newD = h.lens.drop h.nlen ++ List.replicate (32 - h.ndist) 0 := by
  rw [DynHeader.newD, List.take_of_length_le (by rw [List.length_drop]; omega)]

/-- The length of symbol 256 in a sequence that has one (R165). -/
theorem getD_256_eq_zero_iff {lens : List CodeLen} (h : 256 < lens.length) :
    lens.getD 256 0 = 0 ↔ lens[256]? = some 0 := by
  rw [List.getD_eq_getElem _ _ h, List.getElem?_eq_getElem h, Option.some_inj]

/-- Settles O41: whichever symbol completes the sequence, DYN_FINISH follows. -/
theorem dynamicHeaderFinishes : Obligations.DynamicHeaderFinishes := by
  rintro s i vs _ _ _ hi hcounts rfl hlen rfl rfl
  have hfill : s.hdr.lens.length + vs.length = s.hdr.nlen + s.hdr.ndist := List.length_append.symm.trans hlen
  have hexec : exec i s = .next (State.dynFinish { s with hdr := s.hdr.append vs }) := by
    obtain ⟨v, rfl, rfl⟩ | ⟨e, v, ls, rfl, hprev, rfl⟩ | ⟨e, rfl, rfl⟩ | ⟨e, rfl, rfl⟩ := hi
    · exact congrArg _ (State.pushLens_of_complete hfill)
    all_goals rw [List.length_replicate] at hfill
    · exact (exec_clRep16_of_previous e hprev).trans (congrArg _ (State.pushRun_of_complete v hfill))
    · exact congrArg _ (State.pushRun_of_complete 0 hfill)
    · exact congrArg _ (State.pushRun_of_complete 0 hfill)
  obtain ⟨hnlen, -⟩ := hcounts
  have hD := DynHeader.newD_of_complete (h := s.hdr.append vs) hlen
  have heffect := State.dynFinish_effect { s with hdr := s.hdr.append vs }
  simp only [ne_eq, getD_256_eq_zero_iff (lens := (s.hdr.append vs).lens) (by rw [DynHeader.append, hlen]; omega), hD]
    at heffect
  exact ⟨_, hexec, heffect⟩

end Sys2Proof.Machine
end

section
/-! The code tables between headers (43_block_decoder.md R175): every step but one that completes a Huffman block's
header leaves them alone. -/

namespace Sys2Proof.Machine

/-- The two code tables: ll_len and dist_len (10_state.md R28, R29). -/
def State.tables (s : State) : List CodeLen × List CodeLen := (s.llLen, s.distLen)

@[simp] theorem State.enterUnit_tables (s : State) : s.enterUnit.tables = s.tables := by simp [State.tables]

@[simp] theorem State.raise_tables (c : Cause) (s : State) : (s.raise c).tables = s.tables := by simp [State.tables]

@[simp] theorem State.endCall_tables (r : HostResult) (s : State) : (s.endCall r).tables = s.tables := by
  simp [State.tables]

theorem State.finish_tables (bytes : List Byte) (s : State) : (s.finish bytes).tables = s.tables := by
  obtain ⟨-, he⟩ | ⟨-, -, he⟩ := s.finish_cases bytes <;> simp [he]

/-- A unit that suspends has changed no table (44_fsm_host.md R192). -/
theorem Running.suspend_tables {s : State} (h : Running s) : s.suspend.tables = s.tables := by
  obtain ⟨rd, f, -, -, hsnap⟩ := h.point
  rw [State.suspend_running h.call hsnap]
  rfl

/-- An element keeps the tables, or completes the header of a Huffman block (43_block_decoder.md R155, R165). -/
theorem ElemStep.tables {u t : State} {e : Expect} (h : ElemStep u e t) :
    t.tables = u.tables ∨ (fsmOf e = .hdr ∧ t.fsm = .body ∧ t.phase = .between) := by
  cases h with
  | fixedBlock | clSymLast => exact .inr ⟨rfl, rfl, rfl⟩
  | copy T d v h => exact .inl (by rw [copyBytes_frame h]; rfl)
  | reservedBlock | storedMismatch | countsRefused | clLenRefused | clSymRefused | invalidSym | tooFar =>
    exact .inl (State.raise_tables _ _)
  | storedBlock | dynamicBlock | storedBegins | storedByte | storedEnds | counts | clLen | clLenLast | clSym | literal
    | blockEnds | length =>
    exact .inl rfl

/-- A transaction that begins when RESET is not next is another one. -/
theorem ne_reset_of_calls {s : State} {c : HostCall} {cs : List HostCall} (hp : s.phase = .idle)
    (hc : s.calls = c :: cs) (h : ¬s.resetNext) : c ≠ .reset := by
  rintro rfl
  exact h ⟨hp, by rw [hc]; rfl⟩

/-- EOF and DECOMPRESS keep the tables when they begin. -/
theorem exec_call_tables {c : HostCall} {s t : State} (hc : c ≠ .reset) (h : exec c.instr s = .next t) :
    t.tables = s.tables := by
  cases c with
  | reset => exact absurd rfl hc
  | eof => cases h; rfl
  | decompress chunk =>
    obtain ⟨-, -, rfl⟩ | ⟨-, -, rfl⟩ | ⟨-, -, rfl⟩ := execDecompress_cases h
    · exact State.raise_tables _ _
    · exact State.finish_tables _ _
    · rfl

/-- A step that does not run RESET keeps the tables or completes a Huffman block's header, over the ways it answers a next
state (`step_cases`). -/
theorem Inv.step_tables {s t : State} (h : Inv s) (hreset : ¬s.resetNext) (hstep : step s = .next t) :
    t.tables = s.tables ∨ (s.fsm = .hdr ∧ t.fsm = .body ∧ t.phase = .between) := by
  obtain ⟨-, -, rfl⟩ | ⟨c, cs, hp, hc, hx⟩ | ⟨e, i, r, -, he, hd, hx⟩ | ⟨e, -, he, -, rfl⟩ | ⟨e, r, -, -, -, rfl⟩ |
    ⟨-, -, -, rfl⟩ | ⟨-, -, -, rfl⟩ := step_cases hstep
  · exact .inl rfl
  · exact .inl ((exec_call_tables (ne_reset_of_calls hp hc hreset) hx).trans rfl)
  · obtain ⟨-, hf⟩ := h.phase_fsm_of_expect he
    rw [hf]
    exact (elemStep_of_found hd hx).tables.imp_left fun ht => ht.trans s.enterUnit_tables
  · exact .inl ((h.running_enterUnit he).suspend_tables.trans s.enterUnit_tables)
  · exact .inl ((State.raise_tables _ _).trans s.enterUnit_tables)
  · exact .inl (State.finish_tables _ _)
  · exact .inl (State.raise_tables _ _)

/-- Settles O55: a changed table is not a kept one. -/
theorem codeTablesChangeOnlyAtHeaders : Obligations.CodeTablesChangeOnlyAtHeaders := by
  intro s t h hreset hstep hchange
  refine (h.step_tables hreset hstep).resolve_left fun hkept => ?_
  obtain ⟨hll, hdist⟩ := Prod.ext_iff.mp hkept
  exact hchange.elim (absurd hll) (absurd hdist)

end Sys2Proof.Machine
end

section
/-! A DECOMPRESS as a run of steps (44_fsm_host.md R195): a step in a call ends it with one result, or leaves fewer steps
to make, so every call ends (R200, R209). -/

namespace Sys2Proof

/-! ### Elements take bits -/

theorem Reader.Takes.avail {n : Nat} {r r' : Reader} (h : r.Takes n r') : r'.avail + n = r.avail := by
  obtain ⟨hn, rfl⟩ := h
  exact Reader.avail_takeBits hn

/-- ALIGN_TO_BYTE adds no bits (40_bit_reader.md R117). -/
theorem Reader.align_avail_le (r : Reader) : r.align.avail ≤ r.avail := by
  unfold Reader.align
  split
  · exact Nat.le_refl _
  · have := r.bitoff.isLt
    simp only [Reader.avail, List.length_tail, BitVec.ofNat_eq_ofNat, BitVec.toNat_ofNat]
    omega

/-- A codeword of a length table has a bit at least: symbols of length 0 have none (41_huffman.md R130). -/
theorem len_pos_of_mem_codeOf {lens : List CodeLen} {w : Codeword} (hw : w ∈ codeOf lens) : 0 < w.len := by
  obtain ⟨v, l, -, hl, rfl⟩ := mem_codeOf.mp hw
  exact Nat.pos_of_ne_zero fun h0 => hl (BitVec.eq_of_toNat_eq h0)

/-- A coded element takes the bits of its codeword. -/
theorem decodeCoded_avail_lt {lens : List CodeLen} {ext : Nat → Nat} {elem : Nat → Nat → Option Instr} {r r' : Reader}
    {i : Instr} (h : decodeCoded (codeOf lens) ext elem r = .found i r') : r'.avail < r.avail := by
  unfold decodeCoded at h
  split at h
  · cases h
  · cases h
  · next s r₁ hs =>
    obtain ⟨w, hw, -, hbits, -⟩ := decodeSym_sym hs
    have hword := congrArg List.length hbits
    simp only [List.length_append, Reader.bits_length, Codeword.bits_length] at hword
    have hpos := len_pos_of_mem_codeOf hw
    split at h
    · cases h
    · next x r₂ hx =>
      have hext := (Reader.takes_of_readBits hx).avail
      split at h
      · cases h
        change r'.avail + _ = _ at hext
        omega
      · cases h

end Sys2Proof

namespace Sys2Proof.Machine

/-- The code in force of a coded format is that of a length table (10_state.md R30). -/
theorem State.code_of_expect {s : State} {T : Code}
    (h : s.expect = some (.clSym T) ∨ s.expect = some (.llSym T) ∨ s.expect = some (.dSym T)) :
    ∃ lens, T = codeOf lens := by
  unfold State.expect at h
  cases hp : s.phase with
  | idle | storedHdr | dynCounts | clLens => simp [hp] at h
  | clSyms => exact ⟨s.hdr.clLen, by simpa [hp, eq_comm] using h⟩
  | dist => exact ⟨s.distLen, by simpa [hp, eq_comm] using h⟩
  | between =>
    cases hf : s.fsm with
    | body => exact ⟨s.llLen, by simpa [hp, hf, eq_comm] using h⟩
    | stored =>
      simp only [hp, hf] at h
      split at h <;> simp at h
    | hdr | done | failed => simp [hp, hf] at h

/-- Every element but STORED_END, which has no bits, takes bits (30_encoding.md R100). -/
theorem avail_lt_of_found {s : State} {e : Expect} {i : Instr} {r r' : Reader} (he : s.expect = some e)
    (hd : decode e r = .found i r') (hend : e ≠ .storedEnd) : r'.avail < r.avail := by
  have of_takes {n : Nat} (ht : r.Takes (n + 1) r') : r'.avail < r.avail := by
    have := ht.avail
    omega
  cases e with
  | blockHeader => exact of_takes (decodeHeader_found hd).2
  | storedHdr => exact of_takes (decodeStoredHdr_found hd).2
  | storedByte => exact of_takes (decodeStoredByte_found hd).2
  | storedEnd => exact absurd rfl hend
  | dynCounts => exact of_takes (decodeDynCounts_found hd).2
  | clLen => exact of_takes (decodeClLen_found hd).2
  | clSym T =>
    obtain ⟨lens, rfl⟩ := State.code_of_expect (.inl he)
    exact decodeCoded_avail_lt hd
  | llSym T =>
    obtain ⟨lens, rfl⟩ := State.code_of_expect (.inr (.inl he))
    exact decodeCoded_avail_lt hd
  | dSym T =>
    obtain ⟨lens, rfl⟩ := State.code_of_expect (.inr (.inr he))
    exact decodeCoded_avail_lt hd

/-! ### A step in a call -/

/-- The call that runs in `s` goes on in `t`: nothing is handed over, and no transaction is begun. -/
structure CallGoesOn (s t : State) : Prop where
  phase : t.phase ≠ .idle
  results : t.results = s.results
  calls : t.calls = s.calls

/-- The call that runs in `s` has ended in `t` with the result `r` (44_fsm_host.md R209); no transaction is begun. -/
structure CallEnds (r : HostResult) (s t : State) : Prop where
  phase : t.phase = .idle
  results : t.results = s.results ++ [r]
  calls : t.calls = s.calls

/-- A change that hands nothing over and begins no transaction comes first. -/
theorem CallGoesOn.after_same {s u t : State} (h : CallGoesOn u t) (hresults : u.results = s.results)
    (hcalls : u.calls = s.calls) : CallGoesOn s t :=
  ⟨h.phase, hresults ▸ h.results, hcalls ▸ h.calls⟩

theorem CallEnds.after_same {r : HostResult} {s u t : State} (h : CallEnds r u t) (hresults : u.results = s.results)
    (hcalls : u.calls = s.calls) : CallEnds r s t :=
  ⟨h.phase, hresults ▸ h.results, hcalls ▸ h.calls⟩

/-- The end of a call hands its result over. -/
theorem callEnds_endCall {s : State} (r : HostResult) (hp : s.phase ≠ .idle) : CallEnds r s (s.endCall r) :=
  ⟨by simp, by simp [hp], by simp⟩

/-- A raise hands its error over (60_exceptions.md R225). -/
theorem callEnds_raise {s : State} (c : Cause) (hp : s.phase ≠ .idle) : CallEnds (.badData c) s (s.raise c) :=
  ⟨by simp, by simp [hp], by simp⟩

/-- TRAILING ends the call either way (R203). -/
theorem callEnds_finish {s : State} (bytes : List Byte) (hp : s.phase ≠ .idle) :
    ∃ r, CallEnds r s (s.finish bytes) := by
  obtain ⟨-, he⟩ | ⟨-, -, he⟩ := s.finish_cases bytes <;> rw [he]
  · exact ⟨_, callEnds_endCall _ hp⟩
  · exact ⟨_, callEnds_raise _ hp⟩

/-- A suspension hands over the bytes that the committed units emitted (R192). -/
theorem callEnds_suspend {s : State} (hp : s.phase ≠ .idle) : CallEnds (.ok s.rollback.out) s s.suspend := by
  rw [State.suspend, if_neg hp]
  exact ⟨by simp, by simp [hp], by simp⟩

/-- An element ends the call by a raise only; otherwise the call goes on. -/
theorem ElemStep.call {u t : State} {e : Expect} (h : ElemStep u e t) (hp : u.phase ≠ .idle) :
    CallGoesOn u t ∨ ∃ r, CallEnds r u t := by
  cases h with
  | reservedBlock | storedMismatch | countsRefused | clLenRefused | clSymRefused | invalidSym | tooFar =>
    exact .inr ⟨_, .after_same (callEnds_raise _ (fun hidle => hp hidle)) rfl rfl⟩
  | copy T d v h => rw [copyBytes_frame h]; exact .inl ⟨nofun, rfl, rfl⟩
  | storedBlock | fixedBlock | dynamicBlock | storedBegins | storedByte | storedEnds | counts | clLen | clLenLast
    | clSym | clSymLast | literal | blockEnds | length =>
    exact .inl ⟨nofun, rfl, rfl⟩

/-- An element adds no bits; a stored block's header may drop some (43_block_decoder.md R151). -/
theorem ElemStep.avail_le {u t : State} {e : Expect} (h : ElemStep u e t) : t.rd.avail ≤ u.rd.avail := by
  cases h with
  | storedBlock f => exact u.rd.align_avail_le
  | copy T d v h => rw [copyBytes_frame h]; exact Nat.le_refl _
  | _ => simp

/-- After the end of a stored block comes a header or nothing (R154). -/
theorem ElemStep.expect_of_storedEnd {u t : State} (h : ElemStep u .storedEnd t) : t.expect ≠ some .storedEnd := by
  cases h with
  | storedEnds => cases hb : u.bfinal <;> simp [State.expect, hb]

/-- A bound on the steps that the call which runs can still make: two for each bit to come, as between two elements that
take bits at most one STORED_END stands, one more for a STORED_END that is next, and one to end the call. -/
def State.stepsLeft (s : State) : Nat := 2 * s.rd.avail + if s.expect = some .storedEnd then 2 else 1

theorem State.stepsLeft_bounds (s : State) : 1 ≤ s.stepsLeft ∧ s.stepsLeft ≤ 2 * s.rd.avail + 2 := by
  unfold State.stepsLeft
  split <;> omega

/-- An element that runs leaves fewer steps. -/
theorem ElemStep.stepsLeft_lt {s t : State} {e : Expect} {i : Instr} {r : Reader} (he : s.expect = some e)
    (hd : decode e s.rd = .found i r) (h : ElemStep { s.enterUnit with rd := r } e t) : t.stepsLeft < s.stepsLeft := by
  have hle : t.rd.avail ≤ r.avail := h.avail_le
  by_cases hend : e = .storedEnd
  · subst hend
    cases hd
    rw [State.stepsLeft, State.stepsLeft, if_neg h.expect_of_storedEnd, if_pos he]
    omega
  · have hlt := avail_lt_of_found he hd hend
    obtain ⟨-, ht⟩ := t.stepsLeft_bounds
    have hs : s.stepsLeft = 2 * s.rd.avail + 1 := by rw [State.stepsLeft, if_neg (by simpa [he] using hend)]
    omega

/-- A step in a call ends it with one result, or leaves it with fewer steps to make. -/
theorem step_in_call {s t : State} (hp : s.phase ≠ .idle) (hstep : step s = .next t) :
    (CallGoesOn s t ∧ t.stepsLeft < s.stepsLeft) ∨ ∃ r, CallEnds r s t := by
  have henter : s.enterUnit.phase ≠ .idle := by simpa using hp
  obtain ⟨hp', -⟩ | ⟨_, _, hp', -⟩ | ⟨e, i, r, -, he, hd, hx⟩ | ⟨e, -, -, -, rfl⟩ | ⟨e, r, -, -, -, rfl⟩ |
    ⟨-, -, -, rfl⟩ | ⟨-, -, -, rfl⟩ := step_cases hstep
  · exact absurd hp' hp
  · exact absurd hp' hp
  · have helem := elemStep_of_found hd hx
    obtain hgoes | ⟨x, hends⟩ := helem.call henter
    · exact .inl ⟨hgoes.after_same s.enterUnit_results s.enterUnit_calls, helem.stepsLeft_lt he hd⟩
    · exact .inr ⟨x, hends.after_same s.enterUnit_results s.enterUnit_calls⟩
  · exact .inr ⟨_, (callEnds_suspend henter).after_same s.enterUnit_results s.enterUnit_calls⟩
  · exact .inr ⟨_, (callEnds_raise (s := { s.enterUnit with rd := r }) _ henter).after_same s.enterUnit_results
      s.enterUnit_calls⟩
  · obtain ⟨x, hends⟩ := callEnds_finish (s := { s with rd := { s.rd with inq := [], bitoff := 0 } }) _ hp
    exact .inr ⟨x, hends.after_same rfl rfl⟩
  · exact .inr ⟨_, callEnds_raise _ hp⟩

/-! ### Runs -/

/-- A run begins with a step. -/
theorem run_succ {s u : State} (n : Nat) (h : step s = .next u) :
    Host.Core.run Sys2Proof.core (n + 1) s = Host.Core.run Sys2Proof.core n u := by
  simp [Host.Core.run, Sys2Proof.core, h]

/-- Settles O6, by induction on the steps left (`step_in_call`). -/
theorem callsEnd : Obligations.CallsEnd := by
  intro s h hp
  suffices ∃ n t r, n ≤ s.stepsLeft ∧ Host.Core.run Sys2Proof.core n s = .next t ∧ CallEnds r s t by
    obtain ⟨n, t, r, hn, hrun, hphase, hresults, hcalls⟩ := this
    exact ⟨n, t, r, hn.trans s.stepsLeft_bounds.2, hrun, hphase, hresults, hcalls⟩
  induction hm : s.stepsLeft using Nat.strong_induction_on generalizing s with
  | _ m ih =>
    subst hm
    obtain ⟨u, hstep⟩ := legalStepsNeverStop s h
    obtain ⟨hgoes, hlt⟩ | ⟨r, hends⟩ := step_in_call hp hstep
    · obtain ⟨n, t, r, hn, hrun, hphase, hresults, hcalls⟩ :=
        ih u.stepsLeft hlt u (legalStateKept s u h hstep) hgoes.phase rfl
      exact ⟨n + 1, t, r, by omega, (run_succ n hstep).trans hrun, hphase, hgoes.results ▸ hresults,
        hcalls.trans hgoes.calls⟩
    · exact ⟨1, u, r, s.stepsLeft_bounds.1, run_succ 0 hstep, hends⟩

end Sys2Proof.Machine
end

section
/-! What is decoded does not depend on the bytes fed after it (40_bit_reader.md R115; 44_fsm_host.md R204). -/

namespace Sys2Proof

theorem Reader.avail_le_feed (chunk : List Byte) (r : Reader) : r.avail ≤ (r.feed chunk).avail := by
  simp only [Reader.avail, Reader.feed, List.length_append]
  omega

/-- The bits taken are those that stand before the bytes fed. -/
theorem Reader.takeBits_feed {n : Nat} {r : Reader} (chunk : List Byte) (h : n ≤ r.avail) :
    (r.feed chunk).takeBits n = ((r.takeBits n).1, (r.takeBits n).2.feed chunk) := by
  induction n generalizing r with
  | zero => rfl
  | succ n ih =>
    have hq := Reader.inq_ne_nil_of_avail h
    have ha := Reader.avail_takeBit hq
    rw [Reader.takeBits, Reader.takeBit_feed chunk hq, ih (by omega), Reader.takeBits]

/-- A READ_BITS that does not suspend reads the same with more bytes behind (R116). -/
theorem Reader.readBits_feed {n : Nat} {r : Reader} {p : Nat × Reader} (chunk : List Byte)
    (h : r.readBits n = some p) : (r.feed chunk).readBits n = some (p.1, p.2.feed chunk) := by
  obtain ⟨-, hr⟩ | ⟨hn, hr⟩ := Reader.readBits_cases n r <;> rw [hr] at h <;> cases h
  have hle := r.avail_le_feed chunk
  rw [Reader.readBits, if_neg (by omega), Reader.takeBits_feed chunk hn]

/-- A symbol decoding with more bytes left behind. -/
def SymResult.feed (chunk : List Byte) : SymResult → SymResult
  | .sym s r => .sym s (r.feed chunk)
  | .suspend => .suspend
  | .invalid r => .invalid (r.feed chunk)

/-- A decoding with more bytes left behind. -/
def Decoded.feed (chunk : List Byte) : Decoded → Decoded
  | .found i r => .found i (r.feed chunk)
  | .suspend => .suspend
  | .invalid r => .invalid (r.feed chunk)

/-- DECODE that does not suspend does the same with more bytes behind (41_huffman.md R132). -/
theorem decodeSymFrom_feed {T : Code} {fuel c l : Nat} {r : Reader} (chunk : List Byte)
    (h : decodeSymFrom T fuel c l r ≠ .suspend) :
    decodeSymFrom T fuel c l (r.feed chunk) = (decodeSymFrom T fuel c l r).feed chunk := by
  induction fuel generalizing c l r with
  | zero => rfl
  | succ fuel ih =>
    obtain ⟨s, hs, hd⟩ | ⟨hs, hc, hd⟩ | ⟨-, -, -, hd⟩ | ⟨b, r', hs, hc, hr, hd⟩ := decodeSymFrom_succ T fuel c l r
    · rw [hd, decodeSymFrom, hs]; rfl
    · rw [hd, decodeSymFrom, hs, hc]; rfl
    · exact absurd hd h
    · rw [hd] at h ⊢
      rw [← ih h, decodeSymFrom, hs]
      simp [hc, Reader.readBits_feed chunk hr]

/-- So does a codeword with its extra field (30_encoding.md R88). -/
theorem decodeCoded_feed {T : Code} {ext : Nat → Nat} {elem : Nat → Nat → Option Instr} {r : Reader}
    (chunk : List Byte) (h : decodeCoded T ext elem r ≠ .suspend) :
    decodeCoded T ext elem (r.feed chunk) = (decodeCoded T ext elem r).feed chunk := by
  have hsym : decodeSym T r ≠ .suspend := fun hs => h (by simp [decodeCoded, hs])
  have hfeed : decodeSym T (r.feed chunk) = (decodeSym T r).feed chunk := decodeSymFrom_feed chunk hsym
  cases hd : decodeSym T r with
  | suspend => exact absurd hd hsym
  | invalid r' => simp [decodeCoded, hfeed, hd, SymResult.feed, Decoded.feed]
  | sym s r' =>
    cases hx : r'.readBits (ext s) with
    | none => exact absurd (by simp [decodeCoded, hd, hx]) h
    | some p =>
      cases hi : elem s p.1 <;>
        simp [decodeCoded, hfeed, hd, hx, hi, SymResult.feed, Decoded.feed, Reader.readBits_feed chunk hx]

/-- An element found is found with more bytes behind, which are left behind: each of its fields reads the same. -/
theorem decode_found_feed {e : Expect} {r r' : Reader} {i : Instr} (chunk : List Byte)
    (h : decode e r = .found i r') : decode e (r.feed chunk) = .found i (r'.feed chunk) := by
  cases e with
  | clSym T | llSym T | dSym T =>
    exact (decodeCoded_feed chunk fun hs => nomatch h.symm.trans hs).trans (congrArg (Decoded.feed chunk) h)
  | storedEnd => cases h; rfl
  | blockHeader =>
    obtain ⟨f, hf, hbind⟩ := Option.bind_eq_some_iff.mp (Decoded.ofRead_found.mp h)
    obtain ⟨t, ht, hi⟩ := Option.map_eq_some_iff.mp hbind
    cases hi
    simp [decode, decodeHeader, Decoded.ofRead, Reader.readBits_feed chunk hf, Reader.readBits_feed chunk ht]
  | storedHdr =>
    obtain ⟨l, hl, hbind⟩ := Option.bind_eq_some_iff.mp (Decoded.ofRead_found.mp h)
    obtain ⟨n, hn, hi⟩ := Option.map_eq_some_iff.mp hbind
    cases hi
    simp [decode, decodeStoredHdr, Decoded.ofRead, Reader.readBits_feed chunk hl, Reader.readBits_feed chunk hn]
  | storedByte =>
    obtain ⟨b, hb, hi⟩ := Option.map_eq_some_iff.mp (Decoded.ofRead_found.mp h)
    cases hi
    simp [decode, decodeStoredByte, Decoded.ofRead, Reader.readBits_feed chunk hb]
  | dynCounts =>
    obtain ⟨a, ha, hbind⟩ := Option.bind_eq_some_iff.mp (Decoded.ofRead_found.mp h)
    obtain ⟨b, hb, hbind⟩ := Option.bind_eq_some_iff.mp hbind
    obtain ⟨c, hc, hi⟩ := Option.map_eq_some_iff.mp hbind
    cases hi
    simp [decode, decodeDynCounts, Decoded.ofRead, Reader.readBits_feed chunk ha, Reader.readBits_feed chunk hb,
      Reader.readBits_feed chunk hc]
  | clLen =>
    obtain ⟨l, hl, hi⟩ := Option.map_eq_some_iff.mp (Decoded.ofRead_found.mp h)
    cases hi
    simp [decode, decodeClLen, Decoded.ofRead, Reader.readBits_feed chunk hl]

/-- Bits that are no codeword are none with more bytes behind, which are left behind. -/
theorem decode_invalid_feed {e : Expect} {r r' : Reader} (chunk : List Byte) (h : decode e r = .invalid r') :
    decode e (r.feed chunk) = .invalid (r'.feed chunk) := by
  cases e with
  | clSym T | llSym T | dSym T =>
    exact (decodeCoded_feed chunk fun hs => nomatch h.symm.trans hs).trans (congrArg (Decoded.feed chunk) h)
  | storedEnd => cases h
  | blockHeader | storedHdr | storedByte | dynCounts | clLen => exact absurd h Decoded.ofRead_ne_invalid

/-- Settles O12, by the bits taken, which stand before the bytes fed (`Reader.takeBits_feed`). -/
theorem decodeIgnoresLaterBytes : Obligations.DecodeIgnoresLaterBytes :=
  fun _ _ chunk => ⟨fun _ _ => decode_found_feed chunk, fun _ => decode_invalid_feed chunk⟩

end Sys2Proof
end

section
/-! The host's transactions one by one (44_fsm_host.md R195 to R197, R203, R206), and the single steps of a call: an
element that runs, a suspension, and the end of the stream (R192, R194, R201). -/

namespace Sys2Proof.Machine

/-! ### The end of a call outside a unit -/

/-- Ending a call that holds nothing of a unit (10_state.md R38). -/
theorem State.endCall_clean {s : State} (r : HostResult) (hp : s.phase ≠ .idle)
    (hclean : s.snap = none ∧ s.hdr = DynHeader.blank ∧ s.mlen = 0) :
    s.endCall r = { s with phase := .idle, out := [], results := s.results ++ [r] } := by
  obtain ⟨hsnap, hhdr, hmlen⟩ := hclean
  rw [State.endCall_running r hp, ← hsnap, ← hhdr, ← hmlen]

/-- A raise in such a call, on a session that has not failed (60_exceptions.md R225). -/
theorem State.raise_clean {s : State} (c : Cause) (hp : s.phase ≠ .idle) (hf : s.fsm ≠ .failed)
    (hclean : s.snap = none ∧ s.hdr = DynHeader.blank ∧ s.mlen = 0) :
    s.raise c = { s with
      fsm := .failed, err := some c, phase := .idle, out := [], results := s.results ++ [.badData c] } := by
  rw [State.raise, if_neg hf]
  exact State.endCall_clean (s := { s with err := some c, fsm := .failed }) _ hp hclean

/-- TRAILING with no byte, or under a policy that ignores them, ends such a call with its output (R203). -/
theorem State.finish_of_ok {bytes : List Byte} {s : State} (hp : s.phase ≠ .idle)
    (hclean : s.snap = none ∧ s.hdr = DynHeader.blank ∧ s.mlen = 0) (h : bytes = [] ∨ s.cfg.trailing = .ignore) :
    s.finish bytes = { s with phase := .idle, out := [], results := s.results ++ [.ok s.out] } := by
  obtain ⟨-, he⟩ | ⟨hne, hpolicy, -⟩ := s.finish_cases bytes
  · rw [he, State.endCall_clean _ hp hclean]
  · simp [hne, hpolicy] at h

/-- TRAILING with bytes raises under the policy error (R203). -/
theorem State.finish_of_error {bytes : List Byte} {s : State} (hp : s.phase ≠ .idle) (hf : s.fsm ≠ .failed)
    (hclean : s.snap = none ∧ s.hdr = DynHeader.blank ∧ s.mlen = 0) (hne : bytes ≠ [])
    (hpolicy : s.cfg.trailing = .error) :
    s.finish bytes = { s with
      fsm := .failed, err := some .trailingData, phase := .idle, out := []
      results := s.results ++ [.badData .trailingData] } := by
  obtain ⟨h, -⟩ | ⟨-, -, he⟩ := s.finish_cases bytes
  · simp [hne, hpolicy] at h
  · rw [he, State.raise_clean _ hp hf hclean]

/-- Between calls a legal state holds nothing of a unit. -/
theorem Inv.clean_of_idle {s : State} (h : Inv s) (hp : s.phase = .idle) :
    s.snap = none ∧ s.hdr = DynHeader.blank ∧ s.mlen = 0 := h.unitClean (by rw [hp]; rfl)

/-- Between two units a legal state holds nothing of a unit. -/
theorem Inv.clean_of_between {s : State} (h : Inv s) (hp : s.phase = .between) :
    s.snap = none ∧ s.hdr = DynHeader.blank ∧ s.mlen = 0 := h.unitClean (by rw [hp]; rfl)

/-! ### Transactions -/

/-- DECOMPRESS between calls, by the control state (R195 to R197). -/
theorem execDecompress_idle {s : State} (chunk : List Byte) (hp : s.phase = .idle) :
    (s.fsm = .failed → execDecompress chunk s = .next (s.beginCall.raise .sessionFailed)) ∧
      (s.fsm = .done → execDecompress chunk s = .next (s.beginCall.finish chunk)) ∧
      (s.fsm = .hdr ∨ s.fsm = .stored ∨ s.fsm = .body →
        execDecompress chunk s = .next { s.beginCall with rd := s.rd.feed chunk }) := by
  rw [execDecompress, if_neg (not_not.mpr hp)]
  cases hf : s.fsm <;> simp

/-- Settles O42: EOF's meaning is the flag (10_state.md R35). -/
theorem eofReadsTheFlag : Obligations.EofReadsTheFlag :=
  fun s => ⟨s.eof, rfl, beq_iff_eq⟩

/-- Settles O43: DECOMPRESS begins its call and feeds the chunk. -/
theorem decompressFeedsAndRuns : Obligations.DecompressFeedsAndRuns :=
  fun chunk _ hp hf => (execDecompress_idle chunk hp).2.2 hf

/-- Settles O44: the raise on a failed session only hands its error over. -/
theorem decompressOnFailedSession : Obligations.DecompressOnFailedSession := by
  intro chunk s h hp hf
  have hraise : s.beginCall.raise .sessionFailed =
      { s.beginCall with phase := .idle, out := [], results := s.results ++ [.badData .sessionFailed] } := by
    rw [State.raise, if_pos (by simpa using hf)]
    exact State.endCall_clean _ (by simp) (h.clean_of_idle hp)
  refine ⟨((execDecompress_idle chunk hp).1 hf).trans ?_, rfl⟩
  rw [hraise]
  simp [State.beginCall, hp, h.idleClean hp]

/-- Settles O45: TRAILING ends the call with no output, or raises. -/
theorem decompressOnEndedSession : Obligations.DecompressOnEndedSession := by
  intro chunk s h hp hf
  have hexec : exec (.decompress chunk) s = .next (s.beginCall.finish chunk) := (execDecompress_idle chunk hp).2.1 hf
  have hcall : s.beginCall.phase ≠ .idle := by simp
  have hclean := h.clean_of_idle hp
  refine ⟨fun hok => hexec.trans ?ok, fun hne hpolicy => hexec.trans ?raises⟩
  case ok =>
    rw [State.finish_of_ok hcall hclean (by simpa using hok)]
    simp [State.beginCall, hp, h.idleClean hp]
  case raises =>
    rw [State.finish_of_error hcall (by simp [hf]) hclean hne (by simpa using hpolicy)]
    simp [State.beginCall, hp, h.idleClean hp]

/-! ### Steps in a call -/

/-- The rollback point is recorded where a unit begins (R192). -/
theorem State.enterUnit_eq (s : State) :
    s.enterUnit = { s with snap := if s.phase = .between then some s.capture else s.snap } := by
  unfold State.enterUnit
  split <;> rfl

/-- Settles O47: the formats are `State.expect`'s, and the element runs in its unit (`step_of_found`). -/
theorem stepRunsDecodedElement : Obligations.StepRunsDecodedElement := by
  refine ⟨fun s => ?format, fun s e i r hcall he hd => ?runs⟩
  case format =>
    refine ⟨State.expect_idle, fun hp => ⟨State.expect_of_hdr hp, fun hf hr => ?_, fun hf hr => ?_, fun hf => ?_, ?_⟩,
      fun hp => ?_, fun hp => ?_, fun hp => ?_, fun hp => ?_, fun hp => ?_⟩
    case refine_4 => rintro (hf | hf) <;> simp [State.expect, hp, hf]
    case refine_1 => simpa [State.expect, hp, hf] using hr
    all_goals simp [State.expect, *]
  case runs => rw [step_of_found hcall he hd, State.enterUnit_eq]

/-- A step in a call whose next element lacks bits is the suspension of its unit (R192). -/
theorem step_of_suspend {s : State} {e : Expect} (hcall : s.phase ≠ .idle) (he : s.expect = some e)
    (hd : decode e s.rd = .suspend) : step s = .next s.enterUnit.suspend := by
  simp [step, fetch_running hcall, he, fetchElem, hd]

/-- Between two units a suspension has nothing to undo. -/
theorem Inv.suspend_between {s : State} (h : Inv s) (hp : s.phase = .between) :
    s.enterUnit.suspend = { s with phase := .idle, out := [], results := s.results ++ [.ok s.out] } := by
  obtain ⟨hsnap, hhdr, hmlen⟩ := h.clean_of_between hp
  rw [State.enterUnit, if_pos hp, State.suspend_running (by simp [hp]) rfl, ← hsnap, ← hhdr, ← hmlen]
  simp [State.capture]

/-- Inside a unit the rollback point is held already. -/
theorem State.enterUnit_inUnit {s : State} (hin : s.phase.inUnit = true) : s.enterUnit = s :=
  if_neg fun hp => by simp [hp, Phase.inUnit] at hin

/-- Settles O49: between two units the suspension undoes nothing, inside one it undoes the unit. -/
theorem suspendRestoresTheUnit : Obligations.SuspendRestoresTheUnit := by
  intro s e h hcall he hd
  have hstep := step_of_suspend hcall he hd
  refine ⟨fun hp => ?between, fun hin => ?inside⟩
  case between => rw [hstep, h.suspend_between hp]
  case inside =>
    obtain ⟨k, hk, hs⟩ := h.suspend_inUnit hin
    exact ⟨k, hk, by rw [hstep, State.enterUnit_inUnit hin, hs]⟩

/-- A step of a call that stands in DONE ends it (R195, R201). -/
theorem step_of_done {s : State} (hp : s.phase = .between) (hf : s.fsm = .done) : step s = .next s.endOfStream := by
  have he : s.expect = none := by simp [State.expect, hp, hf]
  simp [step, fetch_running (s := s) (by simp [hp]), he, hf]

/-- Settles O51: END_OF_STREAM empties the reader, and TRAILING ends the call with its output or raises. -/
theorem endOfStreamReturns : Obligations.EndOfStreamReturns := by
  intro s rest h hp hf hrest
  have hclean := h.clean_of_between hp
  have hcall : s.phase ≠ .idle := by simp [hp]
  have hstep : step s = .next (State.finish rest { s with rd := ⟨[], 0, s.rd.bitpos⟩ }) := hrest ▸ step_of_done hp hf
  refine ⟨fun hok => hstep.trans (congrArg _ ?ok), fun hne hpolicy => hstep.trans (congrArg _ ?raises)⟩
  case ok => exact State.finish_of_ok (s := { s with rd := _ }) hcall hclean hok
  case raises =>
    exact State.finish_of_error (s := { s with rd := _ }) hcall (by simp [hf]) hclean hne hpolicy

end Sys2Proof.Machine
end

section
/-! The transitions of `fsm` (44_fsm_host.md R190): every step but RESET's moves by a row of the table. -/

namespace Sys2Proof.Machine

/-- The rows of R190's table but RESET's, with their conditions. -/
inductive FsmMove (s t : State) : Prop
  /-- `fsm` stays, and so does the count of a stored block's bytes. -/
  | stays (hfsm : t.fsm = s.fsm) (hrem : t.rem = s.rem)
  /-- A raise (60_exceptions.md R225); DONE has one under TRAILING_POLICY error only (R203). -/
  | fails (hfrom : s.fsm = .hdr ∨ s.fsm = .body ∨ (s.fsm = .done ∧ s.cfg.trailing = .error) ∨ s.fsm = .failed)
    (hto : t.fsm = .failed)
  /-- A stored block's LEN and NLEN (43_block_decoder.md R152). -/
  | storedBegins (hfrom : s.fsm = .hdr) (hto : t.fsm = .stored) (hphase : s.phase = .storedHdr)
  /-- The header of a fixed block, or the end of a dynamic header (R155, R165). -/
  | bodyBegins (hfrom : s.fsm = .hdr) (hto : t.fsm = .body)
    (hkind : (s.phase = .between ∧ t.kind = .fixed) ∨ (s.phase = .clSyms ∧ t.kind = .dynamic))
  /-- A byte of a stored block (R153). -/
  | storedByte (hfrom : s.fsm = .stored) (hto : t.fsm = .stored) (hrem : s.rem ≠ 0) (hless : t.rem = s.rem - 1)
  /-- The end of a block (R154, R169). -/
  | blockEnds (hfrom : (s.fsm = .stored ∧ s.rem = 0) ∨ s.fsm = .body)
    (hto : t.fsm = if s.bfinal = true then .done else .hdr)

/-- Which of a stored block's elements is next says whether bytes of it are left (R153, R154). -/
theorem State.rem_of_expect (s : State) :
    (s.expect = some .storedEnd → s.rem = 0) ∧ (s.expect = some .storedByte → s.rem ≠ 0) := by
  unfold State.expect
  cases s.phase with
  | between =>
    cases s.fsm with
    | stored => by_cases hr : s.rem = 0 <;> simp [hr]
    | hdr | body | done | failed => simp
  | idle | storedHdr | dynCounts | clLens | clSyms | dist => simp

/-- An element that runs where its format is next moves `fsm` by a row of the table. -/
theorem ElemStep.fsmMove {s t : State} {e : Expect} {snap : Option Snapshot} {r : Reader}
    (h : ElemStep { s with snap := snap, rd := r } e t) (hp : s.phase = phaseOf e) (hf : s.fsm = fsmOf e)
    (he : s.expect = some e) : FsmMove s t := by
  obtain ⟨hzero, hpos⟩ := s.rem_of_expect
  cases h with
  | storedBegins len => exact .storedBegins hf rfl hp
  | fixedBlock f => exact .bodyBegins hf rfl (.inl ⟨hp, rfl⟩)
  | clSymLast T vs h hll hd => exact .bodyBegins hf rfl (.inr ⟨hp, rfl⟩)
  | storedByte b => exact .storedByte hf hf (hpos he) rfl
  | storedEnds => exact .blockEnds (.inl ⟨hf, hzero he⟩) rfl
  | blockEnds T => exact .blockEnds (.inr hf) rfl
  | copy T d v h => rw [copyBytes_frame h]; exact .stays rfl rfl
  | reservedBlock | storedMismatch | countsRefused | clLenRefused | clSymRefused =>
    exact .fails (.inl hf) (State.raise_fsm _ _)
  | invalidSym | tooFar => exact .fails (.inr (.inl hf)) (State.raise_fsm _ _)
  | storedBlock | dynamicBlock | counts | clLen | clLenLast | clSym | literal | length => exact .stays rfl rfl

/-- A suspension stays where the unit began (R192). -/
theorem Running.suspend_fsm_rem {s : State} (h : Running s) : s.suspend.fsm = s.fsm ∧ s.suspend.rem = s.rem := by
  obtain ⟨rd, f, -, -, hsnap⟩ := h.point
  rw [State.suspend_running h.call hsnap]
  exact ⟨rfl, rfl⟩

/-- In a call no element is next only in DONE and in FAILED (R195). -/
theorem State.fsm_of_expect_none {s : State} (hp : s.phase ≠ .idle) (he : s.expect = none) :
    s.fsm = .done ∨ s.fsm = .failed := by
  unfold State.expect at he
  cases hphase : s.phase <;> cases hf : s.fsm <;> simp_all

/-- TRAILING stays in DONE or raises under the policy error (R203). -/
theorem fsmMove_finish {s t : State} (bytes : List Byte) (hf : s.fsm = .done) (hfsm : t.fsm = s.fsm)
    (hrem : t.rem = s.rem) (hcfg : t.cfg = s.cfg) : FsmMove s (t.finish bytes) := by
  obtain ⟨-, he⟩ | ⟨-, hpolicy, he⟩ := t.finish_cases bytes <;> rw [he]
  · exact .stays (by simp [hfsm]) (by simp [hrem])
  · exact .fails (.inr (.inr (.inl ⟨hf, hcfg ▸ hpolicy⟩))) (State.raise_fsm _ _)

/-- EOF stays, and so does DECOMPRESS but for the raises on an ended or a failed session (R195 to R197, R206). -/
theorem fsmMove_call {s t : State} {c : HostCall} {cs : List HostCall} (hc : c ≠ .reset)
    (hx : exec c.instr { s with calls := cs } = .next t) : FsmMove s t := by
  cases c with
  | reset => exact absurd rfl hc
  | eof => cases hx; exact .stays rfl rfl
  | decompress chunk =>
    obtain ⟨-, hf, rfl⟩ | ⟨-, hf, rfl⟩ | ⟨-, -, rfl⟩ := execDecompress_cases hx
    · exact .fails (.inr (.inr (.inr hf))) (State.raise_fsm _ _)
    · exact fsmMove_finish chunk hf rfl rfl rfl
    · exact .stays rfl rfl

/-- Only a coded element's bits can be no codeword (41_huffman.md R132). -/
theorem fsmOf_of_invalid {e : Expect} {r r' : Reader} (h : decode e r = .invalid r') :
    fsmOf e = .hdr ∨ fsmOf e = .body := by
  cases e with
  | storedByte => exact absurd h Decoded.ofRead_ne_invalid
  | storedEnd => cases h
  | blockHeader | storedHdr | dynCounts | clLen | clSym T | llSym T | dSym T => simp [fsmOf]

/-- A step from a legal state that does not run RESET moves `fsm` by a row of the table, over the ways it answers a next
state (`step_cases`). -/
theorem Inv.fsmMove {s t : State} (h : Inv s) (hreset : ¬s.resetNext) (hstep : step s = .next t) : FsmMove s t := by
  obtain ⟨-, -, rfl⟩ | ⟨c, cs, hp, hc, hx⟩ | ⟨e, i, r, -, he, hd, hx⟩ | ⟨e, -, he, -, rfl⟩ | ⟨e, r, -, he, hd, rfl⟩ |
    ⟨-, -, hf, rfl⟩ | ⟨hp, he, hf, rfl⟩ := step_cases hstep
  · exact .stays rfl rfl
  · exact fsmMove_call (ne_reset_of_calls hp hc hreset) hx
  · obtain ⟨hp, hf⟩ := h.phase_fsm_of_expect he
    rw [State.enterUnit_eq] at hx
    exact ElemStep.fsmMove (s := s) (elemStep_of_found hd hx) hp hf he
  · obtain ⟨hfsm, hrem⟩ := (h.running_enterUnit he).suspend_fsm_rem
    exact .stays (hfsm.trans s.enterUnit_fsm) (hrem.trans s.enterUnit_rem)
  · obtain ⟨-, hf⟩ := h.phase_fsm_of_expect he
    exact .fails ((fsmOf_of_invalid hd).imp hf.trans fun hb => .inl (hf.trans hb)) (State.raise_fsm _ _)
  · exact fsmMove_finish _ hf rfl rfl rfl
  · exact .fails (.inr (.inr (.inr ((State.fsm_of_expect_none hp he).resolve_left hf)))) (State.raise_fsm _ _)

/-- Settles O53: each row of the table has its conditions. -/
theorem noOtherTransition : Obligations.NoOtherTransition := by
  intro s t h hreset hstep
  cases h.fsmMove hreset hstep with
  | stays hfsm hrem => cases hf : s.fsm <;> simp_all [Fsm.mayBecome]
  | fails hfrom hto => rcases hfrom with hf | hf | ⟨hf, hpolicy⟩ | hf <;> simp_all [Fsm.mayBecome]
  | storedBegins hfrom hto hphase => simp [hfrom, hto, hphase, Fsm.mayBecome]
  | bodyBegins hfrom hto hkind => simpa [hfrom, hto, Fsm.mayBecome] using hkind
  | storedByte hfrom hto hrem hless => simp_all [Fsm.mayBecome]
  | blockEnds hfrom hto =>
    rcases hfrom with ⟨hf, hrem⟩ | hf <;> cases hb : s.bfinal <;> simp_all [Fsm.mayBecome]

end Sys2Proof.Machine
end

section
/-! A call ahead of another: the same call with more bytes behind its input, more output before its own and other
results before its result (44_fsm_host.md R204). What an element does, it does ahead. -/

namespace Sys2Proof

/-- ALIGN_TO_BYTE drops nothing of the bytes fed (40_bit_reader.md R117). -/
theorem Reader.align_feed {r : Reader} (chunk : List Byte) (h : r.inq = [] → r.bitoff = 0) :
    (r.feed chunk).align = r.align.feed chunk := by
  by_cases h0 : r.bitoff = 0
  · rw [Reader.align, Reader.align, if_pos h0]
    exact if_pos h0
  · rw [Reader.align, Reader.align, if_neg h0, Reader.feed, if_neg h0]
    simp [Reader.feed, List.tail_append_of_ne_nil (mt h h0)]

end Sys2Proof

namespace Sys2Proof.Machine

/-- What a call has ahead of another: the bytes behind its input, the output before its own, and the results handed over
before its result. -/
structure Ahead where
  bytes : List Byte
  out : List Byte
  results : List HostResult

/-- The rollback point of the call ahead where the other call holds `k`. -/
def Snapshot.ahead (A : Ahead) (k : Snapshot) : Snapshot :=
  { k with rd := k.rd.feed A.bytes, outLen := A.out.length + k.outLen }

/-- The state of the call ahead where the other call stands in `s`. -/
def State.ahead (A : Ahead) (s : State) : State :=
  { s with
    rd := s.rd.feed A.bytes, out := A.out ++ s.out, results := A.results, snap := s.snap.map (Snapshot.ahead A) }

/-- `m` does in the call ahead what it does in `u`: it goes on where `m` goes on, and raises where `m` raises. -/
def RunsAhead (A : Ahead) (m : State → Result) (u : State) : Prop :=
  ∀ t, m u = .next t →
    (t.phase ≠ .idle → m (u.ahead A) = .next (t.ahead A)) ∧
      (t.phase = .idle → ∃ c, t.fsm = .failed ∧ t.results = u.results ++ [.badData c] ∧
        m (u.ahead A) = .next { t with rd := t.rd.feed A.bytes, results := A.results ++ [.badData c] })

variable {A : Ahead} {u : State}

/-! ### Building `RunsAhead` -/

/-- An update that does not look at what is ahead, and after which the call goes on. -/
theorem RunsAhead.goesOn {f : State → State} (hp : (f u).phase ≠ .idle) (h : f (u.ahead A) = (f u).ahead A) :
    RunsAhead A (fun s => .next (f s)) u := by
  intro t ht
  cases ht
  exact ⟨fun _ => congrArg _ h, fun hidle => absurd hidle hp⟩

theorem State.raise_ahead {s : State} (c : Cause) (hp : s.phase ≠ .idle) :
    (s.ahead A).raise c =
      { s.raise c with rd := s.rd.feed A.bytes, results := A.results ++ [.badData c] } := by
  unfold State.raise State.endCall
  by_cases hf : s.fsm = .failed <;> simp [State.ahead, hf, hp]

/-- A raise discards the output, so only the reader and the results are ahead after it (60_exceptions.md R225). -/
theorem RunsAhead.raises {f : State → State} (c : Cause) (hp : (f u).phase ≠ .idle) (hres : (f u).results = u.results)
    (h : f (u.ahead A) = (f u).ahead A) : RunsAhead A (fun s => .next ((f s).raise c)) u := by
  intro t ht
  cases ht
  refine ⟨fun hrun => absurd (State.raise_phase c _) hrun, fun _ => ⟨c, State.raise_fsm c _, by simp [hp, hres], ?_⟩⟩
  simp only [h, State.raise_ahead c hp, State.raise_rd]

/-- A check that does not look at what is ahead. -/
theorem RunsAhead.ite {p : State → Prop} [DecidablePred p] {m m' : State → Result} (hp : p (u.ahead A) ↔ p u)
    (h : p u → RunsAhead A m u) (h' : ¬p u → RunsAhead A m' u) :
    RunsAhead A (fun s => if p s then m s else m' s) u := by
  by_cases hu : p u
  · simpa [RunsAhead, hu, hp] using h hu
  · simpa [RunsAhead, hu, hp] using h' hu

theorem RunsAhead.ite_next {p : State → Prop} [DecidablePred p] {f g : State → State} (hp : p (u.ahead A) ↔ p u)
    (h : p u → RunsAhead A (fun s => .next (f s)) u) (h' : ¬p u → RunsAhead A (fun s => .next (g s)) u) :
    RunsAhead A (fun s => .next (if p s then f s else g s)) u := by
  simpa only [apply_ite Host.Outcome.next] using RunsAhead.ite hp h h'

/-- What does in `s` what `m'` does in `u`, and ahead of `s` what `m'` does ahead of `u`. -/
theorem RunsAhead.of_eq {m m' : State → Result} {s : State} (h : RunsAhead A m' u) (hs : m s = m' u)
    (hA : m (s.ahead A) = m' (u.ahead A)) (hres : u.results = s.results) : RunsAhead A m s := by
  simpa only [RunsAhead, hs, hA, hres] using h

/-! ### Block headers and stored blocks -/

/-- The block headers (43_block_decoder.md R150 to R156, R166). -/
theorem runsAhead_headerInstr (f : Bool) (ty : Nat) (h : Running u) : RunsAhead A (exec (headerInstr f ty)) u := by
  match ty with
  | 0 =>
    refine .goesOn (f := fun s => { s with bfinal := f, rd := s.rd.align, phase := .storedHdr }) nofun ?_
    simp [State.ahead, Reader.align_feed A.bytes h.emptyAligned]
  | 1 => exact .goesOn nofun rfl
  | 2 => exact .goesOn (f := fun s => { s with bfinal := f, phase := .dynCounts }) nofun rfl
  | _ + 3 => exact .raises (f := fun s => { s with bfinal := f }) _ h.call rfl rfl

theorem runsAhead_storedHdr (len nlen : BitVec 16) (h : Running u) : RunsAhead A (execStoredHdr len nlen) u :=
  .ite Iff.rfl (fun _ => .goesOn nofun rfl) fun _ => .raises _ h.call rfl rfl

theorem State.append_ahead (b : Byte) (s : State) : (s.ahead A).append b = (s.append b).ahead A := by
  simp [State.append, State.produce, State.emit, State.ahead]

theorem runsAhead_storedByte (b : Byte) : RunsAhead A (execStoredByte b) u := by
  refine .goesOn nofun ?_
  rw [State.append_ahead]
  rfl

/-! ### Dynamic headers -/

theorem runsAhead_dynCounts (hlit hdist : BitVec 5) (hclen : BitVec 4) (h : Running u) :
    RunsAhead A (execDynCounts hlit hdist hclen) u :=
  .ite Iff.rfl (fun _ => .raises _ h.call rfl rfl) fun _ => .goesOn nofun rfl

theorem runsAhead_clLen (l : BitVec 3) (h : Running u) : RunsAhead A (execClLen l) u :=
  .ite Iff.rfl (fun _ => .goesOn nofun rfl) fun _ =>
    .ite Iff.rfl (fun _ => .goesOn nofun rfl) fun _ => .raises _ h.call rfl rfl

/-- Lengths are appended and the complete sequence is checked (R159, R165) without a look at what is ahead. -/
theorem runsAhead_pushLens (vs : List CodeLen) (h : Running u) : RunsAhead A (fun s => .next (s.pushLens vs)) u :=
  .ite_next Iff.rfl (fun _ => .goesOn nofun rfl) fun _ =>
    .ite_next Iff.rfl (fun _ => .raises _ h.call rfl rfl) fun _ =>
      .ite_next Iff.rfl (fun _ => .raises _ h.call rfl rfl) fun _ =>
        .ite_next Iff.rfl (fun _ => .raises _ h.call rfl rfl) fun _ => .goesOn nofun rfl

theorem runsAhead_pushRun (r : Nat) (v : CodeLen) (h : Running u) : RunsAhead A (fun s => .next (s.pushRun r v)) u :=
  .ite_next Iff.rfl (fun _ => .raises _ h.call rfl rfl) fun _ => runsAhead_pushLens _ h

/-- The CL symbols (R160 to R163). -/
theorem runsAhead_clInstr {s x : Nat} {i : Instr} (hi : clInstr s x = some i) (h : Running u) :
    RunsAhead A (exec i) u := by
  obtain ⟨v, rfl⟩ | ⟨e, rfl⟩ | ⟨e, rfl⟩ | ⟨e, rfl⟩ := clInstr_cases hi
  · exact runsAhead_pushLens [v] h
  · obtain hfirst | ⟨ls, v, hprev⟩ := List.eq_nil_or_concat' u.hdr.lens
    · exact (RunsAhead.raises (f := id) _ h.call rfl rfl).of_eq (exec_clRep16_of_first e hfirst)
        (exec_clRep16_of_first e hfirst) rfl
    · exact (runsAhead_pushRun _ v h).of_eq (exec_clRep16_of_previous e hprev) (exec_clRep16_of_previous e hprev) rfl
  · exact runsAhead_pushRun _ 0 h
  · exact runsAhead_pushRun _ 0 h

/-! ### Bodies -/

/-- The LL symbols (R168 to R173). -/
theorem runsAhead_llInstr {s x : Nat} {i : Instr} (hi : llInstr s x = some i) (h : Running u) :
    RunsAhead A (exec i) u := by
  unfold llInstr at hi
  split at hi
  · cases hi
    refine RunsAhead.goesOn (f := fun s => (s.append _).commit) nofun ?_
    rw [State.append_ahead]
    rfl
  split at hi
  · cases hi; exact .goesOn nofun rfl
  split at hi
  · cases hi; exact .raises (f := id) _ h.call rfl rfl
  split at hi
  · cases hi; exact .raises (f := id) _ h.call rfl rfl
  obtain ⟨e, -, -, -, hl⟩ := lengthHeld_of_lenInstr hi
  have hgoes : RunsAhead A (fun t => .next { t with mlen := matchLength s e, phase := .dist }) u := .goesOn nofun rfl
  exact hgoes.of_eq (hl u) (hl _) rfl

/-- A copy reads and writes the window, of which nothing is ahead, and emits (42_window.md R141). -/
theorem copyBytes_ahead {d l : Nat} {s t : State} (h : copyBytes d l s = some t) :
    copyBytes d l (s.ahead A) = some (t.ahead A) := by
  induction l generalizing s with
  | zero => cases h; rfl
  | succ l ih =>
    obtain ⟨b, hb, hc⟩ := Option.bind_eq_some_iff.mp h
    exact Option.bind_eq_some_iff.mpr ⟨b, hb, State.append_ahead b s ▸ ih hc⟩

/-- The distance symbols (R170, R172). -/
theorem runsAhead_distance (sym extra : Nat) (h : Running u) : RunsAhead A (distanceElem sym extra) u := by
  obtain ⟨hfar, -⟩ | ⟨-, -, hstop⟩ | ⟨v, hd, hv, hcopy⟩ :=
    copyMatchThen_cases (matchDistance sym extra) u.mlen State.commit u
  · exact (RunsAhead.raises (f := id) _ h.call rfl rfl).of_eq (copyMatchThen_of_tooFar hfar)
      (copyMatchThen_of_tooFar hfar) rfl
  · exact fun t ht => nomatch hstop.symm.trans ht
  · intro t ht
    cases hcopy.symm.trans ht
    exact ⟨fun _ => copyMatchThen_of_copied (s := u.ahead A) hd (copyBytes_ahead hv), nofun⟩

/-- Every element a decoding finds does in the call ahead what it does. -/
theorem runsAhead_of_found {e : Expect} {i : Instr} {r r' : Reader} (hd : decode e r = .found i r') (h : Running u) :
    RunsAhead A (exec i) u := by
  cases e with
  | blockHeader =>
    obtain ⟨⟨f, ty, rfl⟩, -⟩ := decodeHeader_found hd
    exact runsAhead_headerInstr f ty h
  | storedHdr =>
    obtain ⟨⟨l, n, rfl⟩, -⟩ := decodeStoredHdr_found hd
    exact runsAhead_storedHdr l n h
  | storedByte =>
    obtain ⟨⟨b, rfl⟩, -⟩ := decodeStoredByte_found hd
    exact runsAhead_storedByte b
  | storedEnd =>
    cases hd
    exact .goesOn nofun rfl
  | dynCounts =>
    obtain ⟨⟨a, b, c, rfl⟩, -⟩ := decodeDynCounts_found hd
    exact runsAhead_dynCounts a b c h
  | clLen =>
    obtain ⟨⟨l, rfl⟩, -⟩ := decodeClLen_found hd
    exact runsAhead_clLen l h
  | clSym T =>
    obtain ⟨⟨s, x, hi⟩, -⟩ := decodeCoded_found hd
    exact runsAhead_clInstr hi h
  | llSym T =>
    obtain ⟨⟨s, x, hi⟩, -⟩ := decodeCoded_found hd
    exact runsAhead_llInstr hi h
  | dSym T =>
    obtain ⟨⟨s, x, hi⟩, -⟩ := decodeCoded_found hd
    obtain ⟨extra, he⟩ := exec_distInstr hi
    exact (runsAhead_distance _ extra h).of_eq (he u) (he _) rfl

/-! ### Steps -/

theorem State.enterUnit_ahead (s : State) : (s.ahead A).enterUnit = s.enterUnit.ahead A := by
  rw [State.enterUnit_eq, State.enterUnit_eq]
  by_cases hp : s.phase = .between <;> simp [State.ahead, State.capture, Snapshot.ahead, hp]

/-- A step in a call whose next bits are no codeword raises (60_exceptions.md R227). -/
theorem step_of_invalid {s : State} {e : Expect} {r : Reader} (hp : s.phase ≠ .idle) (he : s.expect = some e)
    (hd : decode e s.rd = .invalid r) : step s = .next (State.raise .invalidCode { s.enterUnit with rd := r }) := by
  simp [step, fetch_running hp, he, fetchElem, hd]

/-- A step that does not suspend does in the call ahead what it does: the bytes behind do not matter (R204). -/
theorem Inv.runsAhead_step {s : State} {e : Expect} (h : Inv s) (hp : s.phase ≠ .idle) (he : s.expect = some e)
    (hd : decode e s.rd ≠ .suspend) : RunsAhead A step s := by
  have henter (r : Reader) : { (s.ahead A).enterUnit with rd := r.feed A.bytes } =
      State.ahead A { s.enterUnit with rd := r } := by rw [State.enterUnit_ahead]; rfl
  cases hdec : decode e s.rd with
  | suspend => exact absurd hdec hd
  | found i r =>
    obtain ⟨-, hf⟩ := h.phase_fsm_of_expect he
    obtain ⟨n, hn⟩ := decode_found_takes hdec
    have hrun : Running { s.enterUnit with rd := r } := h.running he ((h.reader (hf ▸ fsmOf_live e)).takes hn)
    refine (runsAhead_of_found hdec hrun).of_eq (step_of_found hp he hdec) ?_ s.enterUnit_results
    rw [step_of_found (s := s.ahead A) hp he (decode_found_feed A.bytes hdec), henter]
  | invalid r =>
    have hraise : RunsAhead A (fun t => .next (t.raise .invalidCode)) { s.enterUnit with rd := r } :=
      .raises (f := id) .invalidCode (by simpa using hp) rfl rfl
    refine hraise.of_eq (step_of_invalid hp he hdec) ?_ s.enterUnit_results
    rw [step_of_invalid (s := s.ahead A) hp he (decode_invalid_feed A.bytes hdec), henter]

end Sys2Proof.Machine
end

section
/-! Chunking invariance (44_fsm_host.md R204): a call with two chunks at once does what a call with the first one does,
until that one ends, and goes on as a call with the second. -/

namespace Sys2Proof.Machine

/-! ### Runs -/

/-- One step leads from `s` to `t`. -/
def StepsTo (s t : State) : Prop := step s = .next t

/-- Some number of steps leads from the first state to the second. -/
abbrev Reaches : State → State → Prop := Relation.ReflTransGen StepsTo

/-- The runs of the host's interface are the chains of steps. -/
theorem reaches_iff_run {s t : State} : Reaches s t ↔ ∃ n, Host.Core.run Sys2Proof.core n s = .next t := by
  constructor
  · intro h
    induction h using Relation.ReflTransGen.head_induction_on with
    | refl => exact ⟨0, rfl⟩
    | head hstep _ ih =>
      obtain ⟨n, hn⟩ := ih
      exact ⟨n + 1, (run_succ n hstep).trans hn⟩
  · rintro ⟨n, hn⟩
    induction n generalizing s with
    | zero => cases hn; exact .refl
    | succ n ih =>
      cases hstep : step s with
      | next u => exact .head hstep (ih ((run_succ n hstep).symm.trans hn))
      | fault r | refused r => simp [Host.Core.run, Sys2Proof.core, hstep] at hn

theorem completes_iff {s t : State} : Completes s t ↔ Reaches s t ∧ t.quiet := by
  rw [reaches_iff_run, ← exists_and_right]
  rfl

/-- Whatever a run reaches from a legal state is legal (O3's step, along the run). -/
theorem Inv.reaches {s t : State} (h : Inv s) (hr : Reaches s t) : Inv t := by
  induction hr with
  | refl => exact h
  | tail _ hstep ih => exact legalStateKept _ _ ih hstep

/-- Where the host waits for nothing no step changes anything (60_exceptions.md R231, R238). -/
theorem State.quiet.eq_of_reaches {s t : State} (h : s.quiet) (hr : Reaches s t) : t = s := by
  induction hr with
  | refl => rfl
  | tail _ hstep ih =>
    subst ih
    obtain ⟨hp, hc⟩ := h
    exact (Host.Outcome.next.inj ((step_idle_nil hp hc).symm.trans hstep)).symm

/-- Steps are deterministic, so the transactions of a state complete in one state. -/
theorem Completes.unique {s t t' : State} (h : Completes s t) (h' : Completes s t') : t = t' := by
  obtain ⟨hr, hq⟩ := completes_iff.mp h
  obtain ⟨hr', hq'⟩ := completes_iff.mp h'
  have hdet : Relator.RightUnique StepsTo := fun _ _ _ ha hb => Host.Outcome.next.inj (ha.symm.trans hb)
  obtain hr | hr := hr.total_of_right_unique hdet hr'
  · exact (hq.eq_of_reaches hr).symm
  · exact hq'.eq_of_reaches hr

theorem Completes.of_reaches {s u t : State} (h : Completes u t) (hr : Reaches s u) : Completes s t := by
  obtain ⟨hrun, hq⟩ := completes_iff.mp h
  exact completes_iff.mpr ⟨hr.trans hrun, hq⟩

/-- What a run completes in, it completes in from its second state on. -/
theorem Completes.after_step {s u t : State} (h : Completes s t) (hstep : StepsTo s u) : Completes u t := by
  obtain ⟨hr, hq⟩ := completes_iff.mp h
  obtain rfl | ⟨v, hv, hr⟩ := hr.cases_head
  · obtain rfl := hq.eq_of_reaches (.single hstep)
    exact h
  · cases Host.Outcome.next.inj (hv.symm.trans hstep)
    exact completes_iff.mpr ⟨hr, hq⟩

/-- The last step of a call: what holds as the call begins, and is kept by the steps that go on, holds before it. -/
theorem Inv.exists_last_step {P : State → Prop} {s t : State} (h : Inv s) (hp : s.phase ≠ .idle) (hcalls : s.calls = [])
    (hr : Reaches s t) (ht : t.quiet) (hbegin : P s)
    (hkeep : ∀ u v, Inv u → u.phase ≠ .idle → P u → StepsTo u v → v.phase ≠ .idle → P v) :
    ∃ u, Inv u ∧ u.phase ≠ .idle ∧ u.calls = [] ∧ u.results = s.results ∧ P u ∧ StepsTo u t := by
  induction hr using Relation.ReflTransGen.head_induction_on with
  | refl => exact absurd ht.1 hp
  | head hstep hr ih =>
    obtain ⟨⟨hphase, hresults, hc⟩, -⟩ | ⟨_, hphase, -, hc⟩ := step_in_call hp hstep
    · obtain ⟨u, hu, hup, huc, hures, hP, hlast⟩ :=
        ih (legalStateKept _ _ h hstep) hphase (hc.trans hcalls) (hkeep _ _ h hp hbegin hstep hphase)
      exact ⟨u, hu, hup, huc, hures.trans hresults, hP, hlast⟩
    · obtain rfl := State.quiet.eq_of_reaches ⟨hphase, hc.trans hcalls⟩ hr
      exact ⟨_, h, hp, hcalls, rfl, hbegin, hstep⟩

/-- What the next step of a call is: a suspension, an element or invalid bits, or the end of the stream. -/
theorem Inv.next_in_call {s : State} (h : Inv s) (hp : s.phase ≠ .idle) :
    (∃ e, s.expect = some e ∧ decode e s.rd = .suspend) ∨ (∃ e, s.expect = some e ∧ decode e s.rd ≠ .suspend) ∨
      (s.phase = .between ∧ s.fsm = .done) := by
  cases he : s.expect with
  | some e => by_cases hd : decode e s.rd = .suspend <;> simp [hd]
  | none =>
    have hf := (State.fsm_of_expect_none hp he).resolve_right (h.callLive hp)
    refine .inr (.inr ⟨?_, hf⟩)
    unfold State.expect at he
    cases hphase : s.phase <;> simp_all

/-! ### The beginning of the unit under way -/

/-- The state between two units in which the unit under way began: `s` itself where none is (10_state.md R39). -/
def State.unitStart (s : State) : State :=
  match s.snap with
  | none => s
  | some k => State.commit { s with rd := k.rd, bfinal := k.bfinal }

theorem Inv.unitStart_of_between {s : State} (h : Inv s) (hp : s.phase = .between) : s.unitStart = s := by
  obtain ⟨hsnap, -⟩ := h.clean_of_between hp
  rw [State.unitStart, hsnap]

theorem inUnit_of_ne {s : State} (hp : s.phase ≠ .idle) (hb : s.phase ≠ .between) : s.phase.inUnit = true := by
  cases h : s.phase <;> simp_all [Phase.inUnit]

/-- Entering a unit and taking bits in it does not change where it began. -/
theorem Inv.unitStart_enterUnit {s : State} (h : Inv s) (hp : s.phase ≠ .idle) (r : Reader) :
    State.unitStart { s.enterUnit with rd := r } = s.unitStart := by
  by_cases hb : s.phase = .between
  · obtain ⟨hsnap, hhdr, hmlen⟩ := h.clean_of_between hb
    rw [h.unitStart_of_between hb, State.enterUnit, if_pos hb]
    change { s with phase := .between, snap := none, hdr := DynHeader.blank, mlen := 0 } = s
    rw [← hb, ← hsnap, ← hhdr, ← hmlen]
  · obtain ⟨rd, f, -, hsnap⟩ := h.unitSnap (inUnit_of_ne hp hb)
    rw [State.enterUnit, if_neg hb, State.unitStart, State.unitStart, hsnap]

/-- An element that leaves its unit under way does not change where it began. -/
theorem ElemStep.unitStart {s t : State} {e : Expect} (h : ElemStep s e t) (hs : Running s)
    (ht : t.phase.inUnit = true) : t.unitStart = s.unitStart := by
  obtain ⟨rd, f, -, -, hsnap⟩ := hs.point
  cases h with
  | storedBlock | dynamicBlock | counts | clLen | clLenLast | clSym | length =>
    rw [State.unitStart, State.unitStart, hsnap]
    rfl
  | fixedBlock | storedBegins | storedByte | storedEnds | clSymLast | literal | blockEnds | copy =>
    simp [Phase.inUnit] at ht
  | reservedBlock | storedMismatch | countsRefused | clLenRefused | clSymRefused | invalidSym | tooFar =>
    simp [Phase.inUnit] at ht

/-- A step that goes on inside a unit runs an element of it. -/
theorem StepsTo.unitStart {s t : State} (hstep : StepsTo s t) (h : Inv s) (hp : s.phase ≠ .idle)
    (ht : t.phase.inUnit = true) : t.unitStart = s.unitStart := by
  have hrun : t.phase ≠ .idle := fun hidle => by simp [hidle, Phase.inUnit] at ht
  obtain ⟨hp', -⟩ | ⟨_, _, hp', -⟩ | ⟨e, i, r, -, he, hd, hx⟩ | ⟨e, -, -, -, rfl⟩ | ⟨e, r, -, -, -, rfl⟩ |
    ⟨-, -, -, rfl⟩ | ⟨-, -, -, rfl⟩ := step_cases hstep
  · exact absurd hp' hp
  · exact absurd hp' hp
  · obtain ⟨-, hf⟩ := h.phase_fsm_of_expect he
    obtain ⟨n, hn⟩ := decode_found_takes hd
    have hu := h.running he ((h.reader (hf ▸ fsmOf_live e)).takes hn)
    exact ((elemStep_of_found hd hx).unitStart hu ht).trans (h.unitStart_enterUnit hp r)
  · exact absurd (callEnds_suspend (s := s.enterUnit) (by simpa using hp)).phase hrun
  · exact absurd (State.raise_phase _ _) hrun
  · obtain ⟨_, hends⟩ := callEnds_finish (s := { s with rd := { s.rd with inq := [], bitoff := 0 } }) _ hp
    exact absurd hends.phase hrun
  · exact absurd (State.raise_phase _ _) hrun

/-- A suspension ends the call where its unit began (R192). -/
theorem Inv.step_suspend {s t : State} {e : Expect} (h : Inv s) (hp : s.phase ≠ .idle) (he : s.expect = some e)
    (hd : decode e s.rd = .suspend) (hstep : StepsTo s t) :
    t = { s.unitStart with phase := .idle, out := [], results := s.results ++ [.ok s.out] } := by
  obtain ⟨hbetween, hinside⟩ := suspendRestoresTheUnit s e h hp he hd
  by_cases hb : s.phase = .between
  · rw [h.unitStart_of_between hb]
    exact Host.Outcome.next.inj (hstep.symm.trans (hbetween hb))
  · obtain ⟨k, hk, hs⟩ := hinside (inUnit_of_ne hp hb)
    rw [State.unitStart, hk]
    exact Host.Outcome.next.inj (hstep.symm.trans hs)

theorem State.unitStart_fsm_out (s : State) : s.unitStart.fsm = s.fsm ∧ s.unitStart.out = s.out := by
  unfold State.unitStart
  split <;> simp

/-- Where a unit began the call stood between two units. -/
theorem Inv.unitStart_outside {s : State} (h : Inv s) (hp : s.phase ≠ .idle) :
    s.unitStart.phase = .between ∧ s.unitStart.snap = none := by
  by_cases hb : s.phase = .between
  · obtain ⟨hsnap, -⟩ := h.clean_of_between hb
    rw [h.unitStart_of_between hb]
    exact ⟨hb, hsnap⟩
  · obtain ⟨rd, f, -, hsnap⟩ := h.unitSnap (inUnit_of_ne hp hb)
    rw [State.unitStart, hsnap]
    exact ⟨rfl, rfl⟩

/-! ### The call with the first chunk -/

/-- How the call with the first chunk, begun after the results `R`, ends in `t`, and how far the call that is ahead of
it by the second chunk, begun in `p`, has come by then. -/
inductive FirstCallEnds (A : Ahead) (R : List HostResult) (p t : State) : Prop
  /-- It suspends the unit that began in `w` (R192). -/
  | suspends (w : State) (hphase : w.phase = .between) (hsnap : w.snap = none)
    (hlive : w.fsm = .hdr ∨ w.fsm = .stored ∨ w.fsm = .body)
    (hend : t = { w with phase := .idle, out := [], results := R ++ [.ok w.out] })
    (hreach : Reaches p (w.ahead A))
  /-- It raises `c`, and so does the call ahead. -/
  | raises (c : Cause) (t' : State) (hfailed : t.fsm = .failed) (hresults : t.results = R ++ [.badData c])
    (hcompletes : Completes p t') (hresults' : t'.results = A.results ++ [.badData c])
  /-- It stands in DONE in `d`, and ends. -/
  | endsStream (d : State) (hinv : Inv d) (hphase : d.phase = .between) (hdone : d.fsm = .done)
    (hresults : d.results = R) (hend : StepsTo d t) (hreach : Reaches p (d.ahead A))

/-- The bytes that END_OF_STREAM takes for trailing data (R201). -/
def State.trailingBytes (s : State) : List Byte := if s.rd.bitoff = 0 then s.rd.inq else s.rd.inq.tail

/-- The ways a call that stands in DONE ends (R201, R203). -/
theorem Inv.endOfStream_cases {s t : State} (h : Inv s) (hp : s.phase = .between) (hf : s.fsm = .done)
    (hstep : StepsTo s t) :
    ((s.trailingBytes = [] ∨ s.cfg.trailing = .ignore) ∧
        t = { s with
          rd := ⟨[], 0, s.rd.bitpos⟩, phase := .idle, out := [], results := s.results ++ [.ok s.out] }) ∨
      (s.trailingBytes ≠ [] ∧ s.cfg.trailing = .error ∧
        t = { s with
          rd := ⟨[], 0, s.rd.bitpos⟩, fsm := .failed, err := some .trailingData, phase := .idle, out := []
          results := s.results ++ [.badData .trailingData] }) := by
  obtain ⟨hok, herror⟩ := endOfStreamReturns s s.trailingBytes h hp hf rfl
  by_cases hne : s.trailingBytes = []
  · exact .inl ⟨.inl hne, Host.Outcome.next.inj (hstep.symm.trans (hok (.inl hne)))⟩
  · cases hpolicy : s.cfg.trailing with
    | ignore => exact .inl ⟨.inr rfl, Host.Outcome.next.inj (hstep.symm.trans (hok (.inr hpolicy)))⟩
    | error => exact .inr ⟨hne, rfl, Host.Outcome.next.inj (hstep.symm.trans (herror hne hpolicy))⟩

variable {A : Ahead}

/-- The bytes behind the input of a call in DONE are trailing data. -/
theorem Inv.trailingBytes_ahead {s : State} (h : Inv s) : (s.ahead A).trailingBytes = s.trailingBytes ++ A.bytes := by
  unfold State.trailingBytes
  by_cases h0 : s.rd.bitoff = 0
  · rw [if_pos h0]
    exact if_pos h0
  · rw [if_neg h0]
    exact (if_neg h0).trans (List.tail_append_of_ne_nil (mt h.emptyAligned h0))

/-- A step that goes on in the call goes on in the call ahead. -/
theorem StepsTo.ahead {s t : State} (hstep : StepsTo s t) (h : Inv s) (hp : s.phase ≠ .idle) (ht : t.phase ≠ .idle) :
    StepsTo (s.ahead A) (t.ahead A) := by
  obtain ⟨e, he, hd⟩ | ⟨e, he, hd⟩ | ⟨hb, hf⟩ := h.next_in_call hp
  · exact absurd (h.step_suspend hp he hd hstep ▸ rfl) ht
  · exact (h.runsAhead_step hp he hd t hstep).1 ht
  · obtain ⟨-, hend⟩ | ⟨-, -, hend⟩ := h.endOfStream_cases hb hf hstep <;> exact absurd (hend ▸ rfl) ht

/-- How the call with the first chunk ends: along it the call ahead stands at the same element, and has stood where the
unit under way began. -/
theorem Inv.firstCallEnds {s t : State} (h : Inv s) (hp : s.phase = .between) (hcalls : s.calls = [])
    (hr : Reaches s t) (ht : t.quiet) : FirstCallEnds A s.results (s.ahead A) t := by
  have hkeep (u v : State) (hu : Inv u) (hup : u.phase ≠ .idle)
      (hreach : Reaches (s.ahead A) (u.ahead A) ∧ Reaches (s.ahead A) (u.unitStart.ahead A)) (hstep : StepsTo u v)
      (hvp : v.phase ≠ .idle) : Reaches (s.ahead A) (v.ahead A) ∧ Reaches (s.ahead A) (v.unitStart.ahead A) := by
    obtain ⟨hnow, hstart⟩ := hreach
    have hnext := hnow.tail (hstep.ahead hu hup hvp)
    refine ⟨hnext, ?_⟩
    by_cases hb : v.phase = .between
    · rwa [(legalStateKept u v hu hstep).unitStart_of_between hb]
    · rwa [hstep.unitStart hu hup (inUnit_of_ne hvp hb)]
  obtain ⟨u, hu, hup, -, hres, ⟨hreach, hstart⟩, hlast⟩ := h.exists_last_step (by simp [hp]) hcalls hr ht
    ⟨.refl, by rw [h.unitStart_of_between hp]⟩ hkeep
  obtain ⟨e, he, hd⟩ | ⟨e, he, hd⟩ | ⟨hb, hdone⟩ := hu.next_in_call hup
  · obtain ⟨-, hf⟩ := hu.phase_fsm_of_expect he
    obtain ⟨hphase, hsnap⟩ := hu.unitStart_outside hup
    obtain ⟨hfsm, hout⟩ := u.unitStart_fsm_out
    refine .suspends u.unitStart hphase hsnap (hfsm ▸ hf ▸ fsmOf_live e) ?_ hstart
    rw [hout, ← hres]
    exact hu.step_suspend hup he hd hlast
  · obtain ⟨c, hfailed, hresults, hA⟩ := (hu.runsAhead_step (A := A) hup he hd t hlast).2 ht.1
    exact .raises c { t with rd := _, results := _ } hfailed (hres ▸ hresults)
      (completes_iff.mpr ⟨hreach.tail hA, ht⟩) rfl
  · exact .endsStream u hu hb hdone hres hlast hreach

/-! ### The call with the second chunk -/

/-- How the call that is ahead ends in `t'` where the other call, begun after the results `R`, ends in `t`: in the same
state, with its output behind the output ahead, or with the same error. -/
def EndsAhead (A : Ahead) (R : List HostResult) (t t' : State) : Prop :=
  t' = { t with results := t'.results } ∧
    ((∃ y, t.results = R ++ [.ok y] ∧ t'.results = A.results ++ [.ok (A.out ++ y)]) ∨
      ∃ c, t.results = R ++ [.badData c] ∧ t'.results = A.results ++ [.badData c])

theorem State.unitStart_ahead (s : State) : (s.ahead A).unitStart = s.unitStart.ahead A := by
  have hsnap : (s.ahead A).snap = s.snap.map (Snapshot.ahead A) := rfl
  rw [State.unitStart, State.unitStart, hsnap]
  cases s.snap <;> rfl

theorem State.ahead_rd_of_no_bytes (hbytes : A.bytes = []) (s : State) : (s.ahead A).rd = s.rd := by
  simp [State.ahead, hbytes]

/-- With no bytes behind, a suspension ends both calls (R192). -/
theorem Inv.suspends_ahead {s t t' : State} {e : Expect} (h : Inv s) (hA : Inv (s.ahead A)) (hbytes : A.bytes = [])
    (hp : s.phase ≠ .idle) (he : s.expect = some e) (hd : decode e s.rd = .suspend) (hstep : StepsTo s t)
    (hstep' : StepsTo (s.ahead A) t') : EndsAhead A s.results t t' := by
  obtain ⟨-, hsnap⟩ := h.unitStart_outside hp
  rw [h.step_suspend hp he hd hstep,
    hA.step_suspend hp he (by rwa [State.ahead_rd_of_no_bytes hbytes]) hstep', State.unitStart_ahead]
  exact ⟨by simp [State.ahead, hbytes, hsnap], .inl ⟨s.out, rfl, rfl⟩⟩

/-- With no bytes behind, the end of the stream ends both calls alike (R201, R203). -/
theorem Inv.endsStream_ahead {s t t' : State} (h : Inv s) (hA : Inv (s.ahead A)) (hbytes : A.bytes = [])
    (hp : s.phase = .between) (hf : s.fsm = .done) (hstep : StepsTo s t) (hstep' : StepsTo (s.ahead A) t') :
    EndsAhead A s.results t t' := by
  obtain ⟨hsnap, -⟩ := h.clean_of_between hp
  have hbytes' : (s.ahead A).trailingBytes = s.trailingBytes := by rw [h.trailingBytes_ahead, hbytes, List.append_nil]
  obtain ⟨hok, rfl⟩ | ⟨hne, hpolicy, rfl⟩ := h.endOfStream_cases hp hf hstep <;>
    obtain ⟨hok', rfl⟩ | ⟨hne', hpolicy', rfl⟩ := hA.endOfStream_cases hp hf hstep'
  · exact ⟨by simp [State.ahead, hsnap, Reader.feed], .inl ⟨s.out, rfl, rfl⟩⟩
  · simp [hbytes' ▸ hne', show s.cfg.trailing = .error from hpolicy'] at hok
  · simp [hbytes'.symm ▸ hne, show (s.ahead A).cfg.trailing = .error from hpolicy] at hok'
  · exact ⟨by simp [State.ahead, hsnap, Reader.feed], .inr ⟨_, rfl, rfl⟩⟩

/-- A call with no bytes behind its input ends in the call ahead as it ends. -/
theorem Inv.endsAhead {s t : State} (h : Inv s) (hA : Inv (s.ahead A)) (hbytes : A.bytes = []) (hp : s.phase ≠ .idle)
    (hcalls : s.calls = []) (hr : Reaches s t) (ht : t.quiet) :
    ∃ t', Reaches (s.ahead A) t' ∧ EndsAhead A s.results t t' := by
  have hkeep (u v : State) (hu : Inv u) (hup : u.phase ≠ .idle) (hreach : Reaches (s.ahead A) (u.ahead A))
      (hstep : StepsTo u v) (hvp : v.phase ≠ .idle) : Reaches (s.ahead A) (v.ahead A) :=
    hreach.tail (hstep.ahead hu hup hvp)
  obtain ⟨u, hu, hup, -, hres, hreach, hlast⟩ := h.exists_last_step hp hcalls hr ht .refl hkeep
  have huA := hA.reaches hreach
  obtain ⟨t', hlast'⟩ := legalStepsNeverStop _ huA
  refine ⟨t', hreach.tail hlast', ?_⟩
  rw [← hres]
  obtain ⟨e, he, hd⟩ | ⟨e, he, hd⟩ | ⟨hb, hdone⟩ := hu.next_in_call hup
  · exact hu.suspends_ahead huA hbytes hup he hd hlast hlast'
  · obtain ⟨c, -, hresults, hstep⟩ := (hu.runsAhead_step (A := A) hup he hd t hlast).2 ht.1
    cases hlast'.symm.trans hstep
    exact ⟨by simp [hbytes], .inr ⟨c, hresults, rfl⟩⟩
  · exact hu.endsStream_ahead huA hbytes hb hdone hlast hlast'

/-! ### Both chunks -/

/-- The call with `chunk` on a session that decodes, its chunk fed (R195). -/
def State.callWith (chunk : List Byte) (s : State) : State := { s.beginCall with rd := s.rd.feed chunk }

/-- The first step of a transaction that the host issues between calls. -/
theorem State.quiet.step_issue {s : State} (h : s.quiet) (c : HostCall) : step (s.issue [c]) = exec c.instr s := by
  obtain ⟨hp, hc⟩ := h
  rw [step_idle_cons (s := s.issue [c]) hp rfl, ← hc]
  rfl

/-- The first step of a call feeds its chunk (R195). -/
theorem State.quiet.stepsTo_callWith {s : State} (h : s.quiet) (hf : s.fsm = .hdr ∨ s.fsm = .stored ∨ s.fsm = .body)
    (chunk : List Byte) : StepsTo (s.issue [.decompress chunk]) (s.callWith chunk) :=
  (h.step_issue _).trans ((execDecompress_idle chunk h.1).2.2 hf)

/-- A call that begins on a legal session is in a legal state. -/
theorem Inv.callWith {s : State} (h : Inv s) (hq : s.quiet) (hf : s.fsm = .hdr ∨ s.fsm = .stored ∨ s.fsm = .body)
    (chunk : List Byte) : Inv (s.callWith chunk) := by
  have hcalls : { s with calls := [] } = s := by rw [← hq.2]
  exact h.exec_call hq.1 (.decompress chunk) [] (hcalls.symm ▸ (execDecompress_idle chunk hq.1).2.2 hf)

/-- A call with both chunks is the call with the first one, ahead by the second. -/
theorem Inv.callWith_append {s : State} (h : Inv s) (hp : s.phase = .idle) (a b : List Byte) :
    s.callWith (a ++ b) = (s.callWith a).ahead ⟨b, [], s.results⟩ := by
  obtain ⟨hsnap, -⟩ := h.clean_of_idle hp
  simp [State.callWith, State.beginCall, State.ahead, hsnap, Reader.feed_append]

theorem EndsAhead.quiet {R : List HostResult} {t t' : State} (h : EndsAhead A R t t') (ht : t.quiet) : t'.quiet := by
  obtain ⟨hsame, -⟩ := h
  rw [hsame]
  exact ht

/-- The ways a call on an ended session ends (R196, R203). -/
theorem Inv.endedCall_cases {s t : State} {b : List Byte} (h : Inv s) (hq : s.quiet) (hf : s.fsm = .done)
    (hcall : Completes (s.issue [.decompress b]) t) :
    ((b = [] ∨ s.cfg.trailing = .ignore) ∧ t = { s with results := s.results ++ [.ok []] }) ∨
      (b ≠ [] ∧ s.cfg.trailing = .error ∧
        t = { s with
          fsm := .failed, err := some .trailingData, results := s.results ++ [.badData .trailingData] }) := by
  obtain ⟨hok, herror⟩ := decompressOnEndedSession b s h hq.1 hf
  have hend {u : State} (hexec : exec (.decompress b) s = .next u) (hu : u.quiet) : t = u :=
    hu.eq_of_reaches (completes_iff.mp (hcall.after_step ((hq.step_issue _).trans hexec))).1
  by_cases hne : b = []
  · exact .inl ⟨.inl hne, hend (hok (.inl hne)) hq⟩
  · cases hpolicy : s.cfg.trailing with
    | ignore => exact .inl ⟨.inr rfl, hend (hok (.inr hpolicy)) hq⟩
    | error => exact .inr ⟨hne, rfl, hend (herror hne hpolicy) hq⟩

/-- Where the first call ended at the end of the stream, the second chunk is trailing data, and the call with both
chunks has the trailing data of both (R201, R203). -/
theorem Inv.endsStream_split {d s₁ t₁ t₂ : State} {b : List Byte} (h : Inv d) (hA : Inv (d.ahead ⟨b, [], d.results⟩))
    (hp : d.phase = .between) (hf : d.fsm = .done) (hstep : StepsTo d s₁)
    (hstep' : StepsTo (d.ahead ⟨b, [], d.results⟩) t₂) (hq : s₁.quiet) (hlive : s₁.fsm ≠ .failed)
    (hcall : Completes (s₁.issue [.decompress b]) t₁) :
    s₁.results = d.results ++ [.ok d.out] ∧ EndsAhead ⟨[], d.out, d.results⟩ s₁.results t₁ t₂ := by
  obtain ⟨hsnap, -⟩ := h.clean_of_between hp
  have hbytes := h.trailingBytes_ahead (A := ⟨b, [], d.results⟩)
  obtain ⟨hok, hs₁⟩ | ⟨-, -, hs₁⟩ := h.endOfStream_cases hp hf hstep
  swap
  · exact absurd (by rw [hs₁]) hlive
  have hcfg : s₁.cfg = d.cfg := by rw [hs₁]
  refine ⟨by rw [hs₁], ?_⟩
  obtain ⟨hok₁, ht₁⟩ | ⟨hne, hpolicy, ht₁⟩ :=
      (legalStateKept d s₁ h hstep).endedCall_cases hq (by rw [hs₁]; exact hf) hcall <;>
    obtain ⟨hok₂, ht₂⟩ | ⟨hne₂, hpolicy₂, ht₂⟩ := hA.endOfStream_cases hp hf hstep'
  · exact ⟨by simp [ht₂, ht₁, hs₁, State.ahead, hsnap, Reader.feed], .inl ⟨[], by rw [ht₁], by simp [ht₂, State.ahead]⟩⟩
  · have hpolicy : d.cfg.trailing = .error := hpolicy₂
    obtain rfl : b = [] := hok₁.resolve_right (by simp [hcfg, hpolicy])
    exact absurd (hbytes.trans (by simpa [hpolicy] using hok)) hne₂
  · have hpolicy : (d.ahead ⟨b, [], d.results⟩).cfg.trailing = .error := hcfg ▸ hpolicy
    exact absurd (hbytes.symm.trans (hok₂.resolve_right (by simp [hpolicy]))) (List.append_ne_nil_of_right_ne_nil _ hne)
  · exact ⟨by simp [ht₂, ht₁, hs₁, State.ahead, hsnap, Reader.feed], .inr ⟨_, by rw [ht₁], by rw [ht₂]; rfl⟩⟩

/-- Where the first call raises at the end of the stream, so does the call with both chunks (R203). -/
theorem Inv.endsStream_fails {d s₁ t₂ : State} {b : List Byte} (h : Inv d) (hA : Inv (d.ahead ⟨b, [], d.results⟩))
    (hp : d.phase = .between) (hf : d.fsm = .done) (hstep : StepsTo d s₁)
    (hstep' : StepsTo (d.ahead ⟨b, [], d.results⟩) t₂) (hq : s₁.quiet) (hfailed : s₁.fsm = .failed) :
    t₂.quiet ∧ s₁.results = d.results ++ [.badData .trailingData] ∧
      t₂.results = d.results ++ [.badData .trailingData] := by
  have hbytes := h.trailingBytes_ahead (A := ⟨b, [], d.results⟩)
  obtain ⟨-, hs₁⟩ | ⟨hne, hpolicy, hs₁⟩ := h.endOfStream_cases hp hf hstep
  · simp [hs₁, hf] at hfailed
  have hcalls : d.calls = [] := by simpa [hs₁] using hq.2
  obtain ⟨hok₂, -⟩ | ⟨-, -, ht₂⟩ := hA.endOfStream_cases hp hf hstep'
  · have hpolicy : (d.ahead ⟨b, [], d.results⟩).cfg.trailing = .error := hpolicy
    exact absurd (hbytes.symm.trans (hok₂.resolve_right (by simp [hpolicy]))) (List.append_ne_nil_of_left_ne_nil hne _)
  · rw [hs₁, ht₂]
    exact ⟨⟨rfl, hcalls⟩, rfl, rfl⟩

/-- Settles O7, over the ways the first call ends: until then the call with both chunks is ahead of it by the second
chunk, and after a suspension it is ahead of the second call by the first call's output. -/
theorem chunkingInvariance : Obligations.ChunkingInvariance := by
  intro s s₁ a b h hq hf hcall
  have hbegin := hq.stepsTo_callWith hf (a ++ b)
  obtain ⟨hr, hq₁⟩ := completes_iff.mp (hcall.after_step (hq.stepsTo_callWith hf a))
  have hcallWith := h.callWith hq hf a
  have hinv₁ := hcallWith.reaches hr
  have hfirst : FirstCallEnds ⟨b, [], s.results⟩ s.results (s.callWith (a ++ b)) s₁ :=
    h.callWith_append hq.1 a b ▸ hcallWith.firstCallEnds rfl hq.2 hr hq₁
  cases hfirst with
  | suspends w hphase hsnap hlive hend hreach =>
    have hlive₁ : s₁.fsm = .hdr ∨ s₁.fsm = .stored ∨ s₁.fsm = .body := hend ▸ hlive
    refine ⟨fun _ t₁ ht₁ => ?_, fun hfailed => by simp [hfailed] at hlive₁⟩
    have hahead : w.ahead ⟨b, [], s.results⟩ = (s₁.callWith b).ahead ⟨[], w.out, s.results⟩ := by
      simp [hend, State.callWith, State.beginCall, State.ahead, hphase, hsnap]
    obtain ⟨hr₁, hqt⟩ := completes_iff.mp (ht₁.after_step (hq₁.stepsTo_callWith hlive₁ b))
    rw [hahead] at hreach
    obtain ⟨t₂, hr₂, hends⟩ := (hinv₁.callWith hq₁ hlive₁ b).endsAhead
      ((h.callWith hq hf (a ++ b)).reaches hreach) rfl nofun hq₁.2 hr₁ hqt
    exact ⟨t₂, w.out, completes_iff.mpr ⟨.head hbegin (hreach.trans hr₂), hends.quiet hqt⟩, hends.1, by rw [hend],
      hends.2⟩
  | raises c t' hfailed hresults hcompletes hresults' =>
    exact ⟨fun hlive => absurd hfailed hlive,
      fun _ => ⟨t', c, hcompletes.of_reaches (.single hbegin), hresults, hresults'⟩⟩
  | endsStream d hinv hphase hdone hresults hend hreach =>
    have hinv' : Inv (d.ahead ⟨b, [], s.results⟩) := (h.callWith hq hf (a ++ b)).reaches hreach
    obtain ⟨t₂, hstep'⟩ := legalStepsNeverStop _ hinv'
    have hcompletes (ht₂ : t₂.quiet) : Completes (s.issue [.decompress (a ++ b)]) t₂ :=
      completes_iff.mpr ⟨.head hbegin (hreach.tail hstep'), ht₂⟩
    rw [← hresults] at hinv' hstep' ⊢
    refine ⟨fun hlive t₁ ht₁ => ?_, fun hfailed => ?_⟩
    · obtain ⟨hres, hends⟩ := hinv.endsStream_split hinv' hphase hdone hend hstep' hq₁ hlive ht₁
      exact ⟨t₂, d.out, hcompletes (hends.quiet (completes_iff.mp ht₁).2), hends.1, hres, hends.2⟩
    · obtain ⟨hq₂, hres, hres₂⟩ := hinv.endsStream_fails hinv' hphase hdone hend hstep' hq₁ hfailed
      exact ⟨t₂, _, hcompletes hq₂, hres, hres₂⟩

/-! ### Empty calls -/

/-- Every DECOMPRESS that is issued on a legal quiet session completes (R200). -/
theorem Inv.exists_completes {s : State} (h : Inv s) (hq : s.quiet) (chunk : List Byte) :
    ∃ t, Completes (s.issue [.decompress chunk]) t := by
  obtain ⟨hfailed, hdone, -⟩ := execDecompress_idle chunk hq.1
  have hends {t : State} (hexec : execDecompress chunk s = .next t) (ht : t.quiet) :
      ∃ t, Completes (s.issue [.decompress chunk]) t :=
    ⟨t, completes_iff.mpr ⟨.single ((hq.step_issue _).trans hexec), ht⟩⟩
  have hruns (hf : s.fsm = .hdr ∨ s.fsm = .stored ∨ s.fsm = .body) :
      ∃ t, Completes (s.issue [.decompress chunk]) t := by
    obtain ⟨n, t, -, -, hrun, hphase, -, hcalls⟩ := callsEnd _ (h.callWith hq hf chunk) nofun
    exact ⟨t, Completes.of_reaches ⟨n, hrun, hphase, hcalls.trans hq.2⟩ (.single (hq.stepsTo_callWith hf chunk))⟩
  cases hf : s.fsm with
  | failed => exact hends (hfailed hf) ⟨State.raise_phase _ _, (State.raise_calls _ _).trans hq.2⟩
  | done =>
    obtain ⟨_, hfinish⟩ := callEnds_finish (s := s.beginCall) chunk nofun
    exact hends (hdone hf) ⟨hfinish.phase, hfinish.calls.trans hq.2⟩
  | hdr | stored | body => exact hruns (by simp [hf])

/-- Settles O8: after a call the empty call is one of O7's second calls, and the call with both chunks is the first call
itself. -/
theorem emptyCallChangesNothing : Obligations.EmptyCallChangesNothing := by
  refine ⟨fun s s₁ a h hq hf hcall hlive => ?after, fun s u hreset hcalls => ?first⟩
  case after =>
    have hbegin := hcall.after_step (hq.stepsTo_callWith hf a)
    have hinv₁ : Inv s₁ := (h.callWith hq hf a).reaches (completes_iff.mp hbegin).1
    obtain ⟨t, ht⟩ := hinv₁.exists_completes (completes_iff.mp hbegin).2 []
    obtain ⟨t₂, x, ht₂, hsame, hx, hends⟩ := (chunkingInvariance s s₁ a [] h hq hf hcall).1 hlive t ht
    rw [List.append_nil] at ht₂
    obtain rfl := hcall.unique ht₂
    obtain ⟨y, hy, hxy⟩ | ⟨c, -, hc⟩ := hends
    · obtain rfl : y = [] := by simpa [hx] using hxy
      have hsame : t = { s₁ with results := t.results } := by rw [hsame]
      rwa [hsame, hy] at ht
    · simp [hx] at hc
  case first =>
    cases hreset
    have hq : State.quiet { State.reset with cfg := s.cfg, calls := s.calls } := ⟨rfl, hcalls⟩
    have hinv := inv_reset_with s.cfg s.calls
    have hfeed := hq.stepsTo_callWith (.inl rfl) []
    have hsuspend := (suspendRestoresTheUnit _ .blockHeader (hinv.callWith hq (.inl rfl) []) nofun rfl rfl).1 rfl
    exact completes_iff.mpr ⟨.head hfeed (.single hsuspend), rfl, hcalls⟩

end Sys2Proof.Machine
end

section
/-! An element cut by the end of the input (60_exceptions.md R229): bytes fed behind the cut complete the encoding, and
a decoding that had ended before the cut would end there with them too. -/

namespace Sys2Proof

/-- Every eight bits are the bits of a byte (20_memory.md R52). -/
theorem exists_byteBits_eq {bs : List Bool} (h : bs.length = 8) : ∃ b, byteBits b = bs := by
  refine ⟨BitVec.ofFnLE fun i : Fin 8 => bs[i], List.ext_getElem (by simp [h]) fun i hi _ => ?_⟩
  have hi : i < 8 := by simpa using hi
  simp [byteBits, hi]

/-- Bits whose number is a multiple of eight are the bits of bytes (R51, R52). -/
theorem exists_flatMap_byteBits_eq {n : Nat} {bs : List Bool} (h : bs.length = 8 * n) :
    ∃ chunk : List Byte, chunk.flatMap byteBits = bs := by
  induction n generalizing bs with
  | zero => exact ⟨[], (List.length_eq_zero_iff.mp h).symm⟩
  | succ n ih =>
    obtain ⟨b, hb⟩ := exists_byteBits_eq (bs := bs.take 8) (by rw [List.length_take]; omega)
    obtain ⟨chunk, hchunk⟩ := ih (bs := bs.drop 8) (by rw [List.length_drop]; omega)
    exact ⟨b :: chunk, by rw [List.flatMap_cons, hb, hchunk, List.take_append_drop]⟩

/-- Any bits, padded, are the bits of bytes. -/
theorem exists_flatMap_byteBits_append (bs : List Bool) :
    ∃ (chunk : List Byte) (pad : List Bool), chunk.flatMap byteBits = bs ++ pad := by
  obtain ⟨chunk, hchunk⟩ := exists_flatMap_byteBits_eq (n := bs.length)
    (bs := bs ++ List.replicate (7 * bs.length) false) (by rw [List.length_append, List.length_replicate]; omega)
  exact ⟨chunk, _, hchunk⟩

/-- Bytes can be fed to any reader so that given bits come next after the unconsumed ones (40_bit_reader.md R115). With
an empty queue the chunk begins with the bits that `bitoff` skips. -/
theorem Reader.exists_feed_bits (r : Reader) (more : List Bool) :
    ∃ chunk pad, (r.feed chunk).bits = r.bits ++ more ++ pad := by
  by_cases hq : r.inq = []
  · obtain ⟨chunk, pad, hchunk⟩ := exists_flatMap_byteBits_append (List.replicate r.bitoff.toNat false ++ more)
    exact ⟨chunk, pad, by simp [Reader.bits, Reader.feed, hq, hchunk]⟩
  · obtain ⟨chunk, pad, hchunk⟩ := exists_flatMap_byteBits_append more
    exact ⟨chunk, pad, by rw [Reader.feed_bits chunk fun h => absurd h hq, hchunk, List.append_assoc]⟩

/-- Settles O11: with the missing bits fed the element is found (O9) after more bits than were there, so without them
nothing was found and no code was invalid (O12). -/
theorem truncatedElementSuspends : Obligations.TruncatedElementSuspends := by
  intro e i more r hT henc hmore
  obtain ⟨chunk, pad, hfeed⟩ := r.exists_feed_bits more
  obtain ⟨r₂, hfound, -, hpos⟩ := decodeOfEncode e i _ pad _ hT henc hfeed
  cases hd : decode e r with
  | suspend => rfl
  | invalid r₁ => cases hfound.symm.trans (decode_invalid_feed chunk hd)
  | found j r₁ =>
    cases hfound.symm.trans (decode_found_feed chunk hd)
    obtain ⟨n, hn⟩ := decode_found_takes hd
    have hlen : 0 < more.length := List.length_pos_iff.mpr hmore
    have hn_le : n ≤ r.bits.length := r.bits_length ▸ hn.1
    have hn_eq : r.bitpos + n = r.bitpos + (r.bits ++ more).length := hn.bitpos.symm.trans hpos
    rw [List.length_append] at hn_eq
    omega

end Sys2Proof
end

section
/-! Errors of a session (60_exceptions.md): the cause codes (R221 to R226), what a raise leaves (R225, R227), and that
only RESET leaves FAILED (R230). -/

namespace Sys2Proof.Machine

/-! ### Cause codes -/

/-- Settles O59: the numbers are listed in R221's order, and each cause has its kind. -/
theorem causeCodes : Obligations.CauseCodes := by
  refine ⟨rfl, fun c => ?kind, fun _ => rfl⟩
  case kind => cases c <;> decide

/-! ### A failed session -/

/-- EOF and DECOMPRESS keep a failed session and what it holds (44_fsm_host.md R197, R206). -/
theorem exec_call_of_failed {c : HostCall} {s t : State} (hc : c ≠ .reset) (hf : s.fsm = .failed)
    (hx : exec c.instr s = .next t) :
    t.fsm = .failed ∧ t.err = s.err ∧ t.rd = s.rd ∧ t.win = s.win ∧ t.wpos = s.wpos ∧ t.total = s.total := by
  cases c with
  | reset => exact absurd rfl hc
  | eof => cases hx; exact ⟨hf, rfl, rfl, rfl, rfl, rfl⟩
  | decompress chunk =>
    obtain ⟨-, -, rfl⟩ | ⟨-, hdone, -⟩ | ⟨-, hlive, -⟩ := execDecompress_cases hx
    · simp [hf]
    · simp [hf] at hdone
    · simp [hf] at hlive

/-- Settles O52: with no call running a step waits or runs a transaction, which is not RESET. -/
theorem failedIsTerminal : Obligations.FailedIsTerminal := by
  intro s t hp hf hreset hstep
  cases hc : s.calls with
  | nil =>
    cases (step_idle_nil hp hc).symm.trans hstep
    exact ⟨hf, by simp [State.eof, hf], rfl, rfl, rfl, rfl, rfl⟩
  | cons c cs =>
    obtain ⟨hfsm, hkept⟩ := exec_call_of_failed (s := { s with calls := cs }) (ne_reset_of_calls hp hc hreset) hf
      ((step_idle_cons hp hc).symm.trans hstep)
    exact ⟨hfsm, by simp [State.eof, hfsm], hkept⟩

/-! ### Precise errors -/

/-- From `s` to `t` a call has failed precisely (60_exceptions.md R225, R227): nothing is written to the window and the
tables, the output is discarded, and the one result is the error of the cause in `err`. -/
def FailsPrecisely (s t : State) : Prop :=
  t.win = s.win ∧ t.wpos = s.wpos ∧ t.total = s.total ∧ t.llLen = s.llLen ∧ t.distLen = s.distLen ∧ t.phase = .idle ∧
    t.out = [] ∧ ∃ c, t.err = some c ∧ t.results = s.results ++ [.badData c]

/-- A raise in a call of a session that has not failed is precise. -/
theorem failsPrecisely_raise {s : State} (c : Cause) (hp : s.phase ≠ .idle) (hf : s.fsm ≠ .failed) :
    FailsPrecisely s (s.raise c) := by
  simp [FailsPrecisely, hp, hf]

/-- So is the raise of an element that has written `bfinal` or the header under way. -/
theorem failsPrecisely_raise_elem {s : State} {f : Bool} {hdr : DynHeader} (c : Cause) (hp : s.phase ≠ .idle)
    (hf : s.fsm ≠ .failed) : FailsPrecisely s (State.raise c { s with bfinal := f, hdr := hdr }) :=
  failsPrecisely_raise (s := { s with bfinal := f, hdr := hdr }) c hp hf

/-- An element fails a session by a raise alone. -/
theorem ElemStep.failsPrecisely {u t : State} {e : Expect} (h : ElemStep u e t) (hp : u.phase ≠ .idle)
    (hf : u.fsm ≠ .failed) (ht : t.fsm = .failed) : FailsPrecisely u t := by
  cases h with
  | reservedBlock | storedMismatch | countsRefused | clLenRefused | clSymRefused | invalidSym | tooFar =>
    exact failsPrecisely_raise_elem _ hp hf
  | copy T d v h => rw [copyBytes_frame h] at ht; exact absurd ht hf
  | storedEnds | blockEnds => cases hb : u.bfinal <;> simp [hb] at ht
  | fixedBlock | storedBegins | clSymLast => cases ht
  | storedBlock | dynamicBlock | storedByte | counts | clLen | clLenLast | clSym | literal | length =>
    exact absurd ht hf

/-- TRAILING fails an ended session by its raise alone (44_fsm_host.md R203). -/
theorem failsPrecisely_finish {s : State} (bytes : List Byte) (hp : s.phase ≠ .idle) (hf : s.fsm ≠ .failed)
    (ht : (s.finish bytes).fsm = .failed) : FailsPrecisely s (s.finish bytes) := by
  obtain ⟨-, he⟩ | ⟨-, -, he⟩ := s.finish_cases bytes <;> rw [he] at ht ⊢
  · exact absurd (by simpa using ht) hf
  · exact failsPrecisely_raise _ hp hf

/-- A transaction fails a session by the trailing data of a DECOMPRESS alone (R196, R203). -/
theorem exec_call_failsPrecisely {c : HostCall} {s t : State} (hf : s.fsm ≠ .failed) (hx : exec c.instr s = .next t)
    (ht : t.fsm = .failed) : FailsPrecisely s t := by
  cases c with
  | reset => cases hx; cases ht
  | eof => cases hx; exact absurd ht hf
  | decompress chunk =>
    obtain ⟨-, hfailed, -⟩ | ⟨-, -, rfl⟩ | ⟨-, -, rfl⟩ := execDecompress_cases hx
    · exact absurd hfailed hf
    · exact failsPrecisely_finish (s := s.beginCall) chunk nofun hf ht
    · exact absurd ht hf

/-- Settles O56: of the ways a step answers a next state (`step_cases`) only raises enter FAILED. -/
theorem errorsArePrecise : Obligations.ErrorsArePrecise := by
  intro s t h hf hstep ht
  change FailsPrecisely s t
  obtain ⟨-, -, rfl⟩ | ⟨c, cs, -, -, hx⟩ | ⟨e, i, r, hp, -, hd, hx⟩ | ⟨e, -, he, -, rfl⟩ | ⟨e, r, hp, -, -, rfl⟩ |
    ⟨hp, -, -, rfl⟩ | ⟨hp, he, hdone, -⟩ := step_cases hstep
  · exact absurd ht hf
  · exact exec_call_failsPrecisely (s := { s with calls := cs }) hf hx ht
  · rw [State.enterUnit_eq] at hx
    exact (elemStep_of_found hd hx).failsPrecisely hp hf ht
  · obtain ⟨hfsm, -⟩ := (h.running_enterUnit he).suspend_fsm_rem
    exact absurd ((hfsm.trans s.enterUnit_fsm).symm.trans ht) hf
  · rw [State.enterUnit_eq]
    exact failsPrecisely_raise (s := { s with rd := r, snap := _ }) _ hp hf
  · exact failsPrecisely_finish (s := { s with rd := _ }) _ hp hf ht
  · exact absurd ((State.fsm_of_expect_none hp he).resolve_left hdone) hf

end Sys2Proof.Machine
end

section
/-! DECOMPRESS while a call runs: the overlap has no result (70_reset_and_hazards.md R255), and U12 of
93_implementation_defined.md answers it with a refusal. -/

namespace Sys2Proof.Machine

/-- While a call runs DECOMPRESS is refused before `fsm` or the chunk is looked at; `execDecompress_idle` has the
meanings between two calls. -/
theorem execDecompress_running {s : State} (chunk : List Byte) (hp : s.phase ≠ .idle) :
    execDecompress chunk s = .refused .overlappingCall := by
  rw [execDecompress, if_pos hp]

/-- Settles O46: DECOMPRESS's meaning tests the phase first (`execDecompress_running`). -/
theorem overlappingCallsHaveNoResult : Obligations.OverlappingCallsHaveNoResult :=
  fun chunk _ hp => execDecompress_running chunk hp

end Sys2Proof.Machine
end

section
/-! Words of the spec's vectors, decoded (30_encoding.md R76 to R93, 95_test_vectors.md): each is the encoding of its
element, so it decodes to that element (O9). -/

namespace Sys2Proof.Machine

/-- An element whose encoding stands next is decoded, and as many bits are taken (30_encoding.md R100). -/
theorem decode_of_encode {e : Expect} {i : Instr} {bs : List Bool} {r r' : Reader} (hT : CodeInForceOk e)
    (henc : encode e i = some bs) (hr : bs <+: r.bits ∧ (r.takeBits bs.length).2 = r') : decode e r = .found i r' := by
  obtain ⟨⟨rest, hrest⟩, hr'⟩ := hr
  obtain ⟨r₁, hfound, -, hpos⟩ := decodeOfEncode e i bs rest r hT henc hrest.symm
  obtain ⟨n, hn⟩ := decode_found_takes hfound
  obtain rfl : n = bs.length := Nat.add_left_cancel (hn.bitpos.symm.trans hpos)
  obtain ⟨-, rfl⟩ := hn
  rw [hfound, hr']

/-- A coded element is encoded as its symbol's codeword and its extra field (R88). -/
theorem encodeCoded_of_codeword {T : Code} {s x : Nat} {w : Codeword} {ext : Nat → Nat} (hw : T.codeword s = some w) :
    encodeCoded T ext (some (s, x)) = some (w.bits ++ fieldBits (ext s) x) := by
  simp [encodeCoded, hw]

/-! ### The codes of the vectors -/

/-- What BUILD returns for a table it accepts can be in force (41_huffman.md R125, R131). -/
theorem codeOf_wf_of_accepted {strict : Bool} {kind : CodeKind} {lens : List CodeLen} (hsize : lens.length = kind.size)
    (hacc : buildAccepts strict kind lens = true) : (codeOf lens).wf = true :=
  builtCodesArePrefixCodes strict kind lens _ hsize (if_pos hacc)

theorem codeOf_fixedLL_wf : (codeOf fixedLL).wf = true :=
  codeOf_wf_of_accepted (kind := .ll) fixedLL_length (buildAccepts_fixed false).1

theorem codeOf_fixedD_wf : (codeOf fixedD).wf = true :=
  codeOf_wf_of_accepted (kind := .d) fixedD_length (buildAccepts_fixed false).2

/-- CLSTD is a complete CL code (95_test_vectors.md). -/
theorem codeOf_clStd_wf : (codeOf clStdLens).wf = true :=
  codeOf_wf_of_accepted (strict := false) (kind := .cl) rfl (by decide)

/-- The codewords of CLSTD: 0000 to 1100, then 11010 to 11111 (95_test_vectors.md). -/
theorem codeword_clStd :
    ∀ v < 19, (codeOf clStdLens).codeword v = some (if v < 13 then ⟨v, 4, v⟩ else ⟨v + 13, 5, v⟩) := by
  decide

/-! ### The words -/

/-- Settles O13: at each position the element's encoding stands next (`decode_of_encode`). It is the fields of the eight
uncoded elements, and for the coded ones the codeword that a fixed code (O22) or CLSTD gives the symbol, then the extra
field. -/
theorem decodingExamples : Obligations.DecodingExamples := by
  obtain ⟨hll, hd⟩ := fixedCodewords
  unfold Obligations.DecodingExamples
  and_intros
  -- the uncoded elements
  iterate 8 exact decode_of_encode trivial rfl (by decide)
  -- under the fixed codes: LIT, LEN_258; DIST_0; EOB, LEN_285, INVALID_286; DIST_31
  iterate 2 exact decode_of_encode codeOf_fixedLL_wf (encodeCoded_of_codeword (hll _ (by decide))) (by decide)
  · exact decode_of_encode codeOf_fixedD_wf (encodeCoded_of_codeword (hd _ (by decide))) (by decide)
  iterate 3 exact decode_of_encode codeOf_fixedLL_wf (encodeCoded_of_codeword (hll _ (by decide))) (by decide)
  · exact decode_of_encode codeOf_fixedD_wf (encodeCoded_of_codeword (hd _ (by decide))) (by decide)
  -- the CL symbols under CLSTD
  iterate 8 exact decode_of_encode codeOf_clStd_wf (encodeCoded_of_codeword (codeword_clStd _ (by decide))) (by decide)

end Sys2Proof.Machine
end
